-- ==== Sys2Proof/Word.lean ====
section
/-! DEFINITION. The word types of the LFBC: a byte and the 32-bit word of its host window (R9, R51, R80). -/

namespace Sys2Proof

/-- A byte `b[7:0]`: a row register, a coordinate operand, a value on the transport (R9). -/
abbrev Byte := BitVec 8

/-- A word of the host window: a command or the STATUS value (R28, R29, R80). -/
abbrev Word := BitVec 32

end Sys2Proof
end

