-- ==== Sys2Proof/Config.lean ====
section
/-! DEFINITION. What one LFBC instance fixes (R6) and the free values: the OPEN parameters and the choices the
spec leaves to the TRANSPORT and to time. An `opaque` constant has no body a proof can see, so a statement about the
model holds for every value of it. -/

namespace Sys2Proof

/-- The TRANSPORT's answer to an OPEN or a WRITE (R12, R62). -/
inductive Answer where
  | ack
  | timeout
  deriving DecidableEq, Repr, Inhabited

/-- The agents that share the LFBC's host window (R8): one of them moves when both can. -/
inductive Agent where
  | host
  | controller
  deriving DecidableEq, Repr, Inhabited

/-- The driver-chip register a flush selects (R6, R143). -/
def Config.regBase : Byte := 0x00#8

/-- The pad byte after each data byte of a flush (R6, R143). -/
def Config.pad : Byte := 0x00#8

/-- `ADDR_W`, the address byte every OPEN carries: an OPEN parameter, any value (R6, R61, D13; log entry 6). -/
opaque Config.addrW : Byte

/-- `INIT_CMD[0..3]`, the driver-init bytes: OPEN parameters, any values (R6, R190, D14; log entry 6). -/
opaque Config.initCmd : Fin 4 → Byte

/-- Free value: the TRANSPORT's `n`-th answer beyond those listed in the state (R62, I7; log entry 4). -/
opaque Config.freeAnswer : Nat → Answer

/-- Free value: who moves at the `n`-th contested moment beyond those listed in the state (R30, I16; log entry 3). -/
opaque Config.freeTurn : Nat → Agent

end Sys2Proof
end

