-- ==== Sys2Proof/Syntax.lean ====
section
/-! DEFINITION. The ten commands of the LFBC, one constructor per row of the opcode table (R85). The operands are held
at the width of their field (R81 to R83), so every term has an encoding. -/

namespace Sys2Proof

/-- A command with its operands (R85). -/
inductive Instr where
  /-- INIT, format F0 (R190). -/
  | init
  /-- SET_PIXEL x, y, format FXY (R100). -/
  | setPixel (x y : Byte)
  /-- CLEAR_PIXEL x, y, format FXY (R104). -/
  | clearPixel (x y : Byte)
  /-- CLEAR_ALL, format F0 (R108). -/
  | clearAll
  /-- ROTATE_LEFT, format F0 (R130). -/
  | rotateLeft
  /-- ROTATE_RIGHT, format F0 (R132). -/
  | rotateRight
  /-- FLUSH, format F0 (R145). -/
  | flush
  /-- DRAW_ARROW u, format FU: `u` is the source's `pointingUp` (R83, R172). -/
  | drawArrow (u : Bool)
  /-- DRAW_CHECKMARK, format F0 (R176). -/
  | drawCheckmark
  /-- GET_PIXEL x, y, format FXY (R112). -/
  | getPixel (x y : Byte)
  deriving DecidableEq, Repr

end Sys2Proof
end

