-- ==== Sys2Proof/Decode.lean ====
section
/-! DEFINITION. Decoding of a command word, total and strict (R86, R87), and the encoder written from the same formats
(R81, R85). -/

namespace Sys2Proof

/-- Why a word is illegal (R86): the two cases of the rule. -/
inductive Illegal where
  /-- R86 (a): the opcode is 0x00 or 0x0B to 0xFF. -/
  | unassignedOpcode
  /-- R86 (b): the opcode is legal and a bit its format requires to be 0 is 1. -/
  | reservedBits
  deriving DecidableEq, Repr

/-- What Decode answers for a word (R87): a command, or Illegal with the reason. -/
inductive Decoded where
  | command (i : Instr)
  | illegal (why : Illegal)
  deriving DecidableEq, Repr

/-- The field OP = v[31:24] (R80). -/
def fieldOp (v : Word) : Byte := v.extractLsb' 24 8

/-- The field RSV = v[23:16] (R80). -/
def fieldRsv (v : Word) : Byte := v.extractLsb' 16 8

/-- The field X = v[15:8] (R80, R82). -/
def fieldX (v : Word) : Byte := v.extractLsb' 8 8

/-- The field Y = v[7:0] (R80, R82). -/
def fieldY (v : Word) : Byte := v.extractLsb' 0 8

/-- The direction bit U = v[0] (R83). -/
def fieldU (v : Word) : Bool := v.getLsbD 0

/-- Format F0: bits 23:0 must be 0 (R81). -/
def decodeF0 (v : Word) (i : Instr) : Decoded :=
  if v.extractLsb' 0 24 = 0#24 then .command i else .illegal .reservedBits

/-- Format FXY: bits 23:16 must be 0 (R81). -/
def decodeFXY (v : Word) (i : Byte → Byte → Instr) : Decoded :=
  if fieldRsv v = 0#8 then .command (i (fieldX v) (fieldY v)) else .illegal .reservedBits

/-- Format FU: bits 23:1 must be 0 (R81). -/
def decodeFU (v : Word) (i : Bool → Instr) : Decoded :=
  if v.extractLsb' 1 23 = 0#23 then .command (i (fieldU v)) else .illegal .reservedBits

/-- `Decode(v)` (R87). -/
def decode (v : Word) : Decoded :=
  match (fieldOp v).toNat with
  | 0x01 => decodeF0 v .init
  | 0x02 => decodeFXY v .setPixel
  | 0x03 => decodeFXY v .clearPixel
  | 0x04 => decodeF0 v .clearAll
  | 0x05 => decodeF0 v .rotateLeft
  | 0x06 => decodeF0 v .rotateRight
  | 0x07 => decodeF0 v .flush
  | 0x08 => decodeFU v .drawArrow
  | 0x09 => decodeF0 v .drawCheckmark
  | 0x0A => decodeFXY v .getPixel
  | _ => .illegal .unassignedOpcode

/-- A word of format F0 (R81). -/
def encodeF0 (op : Byte) : Word := op ++ 0#24

/-- A word of format FXY (R81). -/
def encodeFXY (op x y : Byte) : Word := op ++ (0#8 ++ (x ++ y))

/-- A word of format FU (R81). -/
def encodeFU (op : Byte) (u : Bool) : Word := op ++ (0#23 ++ BitVec.ofBool u)

/-- The word of a command (R85). -/
def encode : Instr → Word
  | .init => encodeF0 0x01#8
  | .setPixel x y => encodeFXY 0x02#8 x y
  | .clearPixel x y => encodeFXY 0x03#8 x y
  | .clearAll => encodeF0 0x04#8
  | .rotateLeft => encodeF0 0x05#8
  | .rotateRight => encodeF0 0x06#8
  | .flush => encodeF0 0x07#8
  | .drawArrow u => encodeFU 0x08#8 u
  | .drawCheckmark => encodeF0 0x09#8
  | .getPixel x y => encodeFXY 0x0A#8 x y

/-- The command of a decoded word, if it is one. -/
def Decoded.instr? : Decoded → Option Instr
  | .command i => some i
  | .illegal _ => none

/-- The 32-bit command word whose low `nbits` bits are those of `w`, every bit above them 0 (R80: one word, one length). -/
def tableWord (nbits w : Nat) : Word := BitVec.ofNat 32 (w % 2 ^ nbits)

/-- The command the decoder reads from a row of the opcode table laid out as one command word. -/
def decodeTableWord (nbits w : Nat) : Option Instr := (decode (tableWord nbits w)).instr?

end Sys2Proof
end

