-- ==== Sys2Proof/Machine/State.lean ====
section
/-! DEFINITION. The state of the LFBC (R20), the agents' inputs beside it, the reasons a step stops, and the state after
reset (R40). Plain data throughout. -/

namespace Sys2Proof.Machine

/-- The frame buffer: eight row registers `FB[0..7]`, one byte per row (R21). -/
structure FrameBuffer where
  row0 : Byte
  row1 : Byte
  row2 : Byte
  row3 : Byte
  row4 : Byte
  row5 : Byte
  row6 : Byte
  row7 : Byte
  deriving DecidableEq, Repr

/-- A status code, as STATUS.ERR shows it (R33, R200); codes 4 to 7 are never written and have no name here. -/
inductive Code where
  | ok
  | timeout
  | notInit
  | illegal
  deriving DecidableEq, Repr

/-- An event of the transport trace (R12), with the TRANSPORT's answer where it gives one (R62, R234). -/
inductive Event where
  /-- OPEN(a). -/
  | opened (a : Byte) (answer : Answer)
  /-- WRITE(b). -/
  | wrote (b : Byte) (answer : Answer)
  /-- CLOSE, which always completes (R62). -/
  | closed
  deriving DecidableEq, Repr

/-- What the HOST does to the host window (R11, R50): an access of a width in bytes at an offset from HOST_BASE, or WAIT,
which reads STATUS until BUSY = 0 (R89). -/
inductive HostAction where
  | write (offset width : Nat) (value : Word)
  | read (offset width : Nat)
  | wait
  deriving DecidableEq, Repr

/-- What has become of the HOST's last command, from the HOST's side (R234, R242; log entry 23). -/
inductive LastCommand where
  /-- The HOST has written no command. -/
  | notWritten
  /-- The HOST has written a command and has not read STATUS with BUSY = 0 since. -/
  | written
  /-- The HOST has read STATUS with BUSY = 0 after its last CMD write. -/
  | readBack
  deriving DecidableEq, Repr

/-- The whole machine: the LFBC's state (R20, R38), its transport trace (R12), and what the HOST and the TRANSPORT have
done and have still to do, which is the model's own (log entries 2 to 5, 23). -/
structure State where
  /-- `FB[0..7]` (R21). -/
  fb : FrameBuffer
  /-- `INITED` (R25), also STATUS bit 1 (R31). -/
  inited : Bool
  /-- STATUS.BUSY (R30). -/
  busy : Bool
  /-- STATUS.PIXEL (R32). -/
  pixel : Bool
  /-- STATUS.ERR (R33). -/
  err : Code
  /-- STATUS.OVR, sticky (R34). -/
  ovr : Bool
  /-- STATUS.FAULT, sticky (R35). -/
  fault : Bool
  /-- `SESSION`, hidden (R37). -/
  session : Bool
  /-- The command in execution, from acceptance to completion (R38). -/
  command : Option Decoded
  /-- The transport trace, oldest event first (R12, R234). -/
  trace : List Event
  /-- The HOST's actions to come, in order. -/
  host : List HostAction
  /-- The words the HOST's reads returned, oldest first. -/
  hostReads : List Word
  /-- Whether the HOST has written a command, and since then read STATUS with BUSY = 0 (R234). -/
  lastCommand : LastCommand
  /-- The TRANSPORT's answers to come, in order. -/
  answers : List Answer
  /-- How many answers were drawn as free values. -/
  freeAnswers : Nat
  /-- Who moves at the contested moments to come, in order. -/
  turns : List Agent
  /-- How many turns were drawn as free values. -/
  freeTurns : Nat
  deriving DecidableEq, Repr

/-- The machine stops with a fault. -/
inductive Fault where
  /-- `BadHostAccess` (R54, I5): the HOST makes an access the LFBC's interface does not have (another width than 4, an
  unaligned offset, an offset other than 0x0 and 0x4). Raised by `hostAct`. Safe: the hardware's response is not
  specified, and the model stops where the hardware may go on. -/
  | badHostAccess (offset width : Nat)
  deriving DecidableEq, Repr

/-- The model has no meaning for an instruction. -/
inductive Refusal where
  /-- An instruction with no meaning yet. Raised by an arm of `exec` only; no arm does. Safe: the model stops. -/
  | notModelled (mnemonic : String)
  deriving DecidableEq, Repr

/-- Right after reset (R40, R230): every pixel unlit, every flag 0, ERR = OK, no command in execution, an empty trace.
The agents' lists, which are not LFBC state, are empty, and the HOST has written no command (log entries 2 to 5, 23). -/
def State.reset : State where
  fb := ⟨0x00#8, 0x00#8, 0x00#8, 0x00#8, 0x00#8, 0x00#8, 0x00#8, 0x00#8⟩
  inited := false
  busy := false
  pixel := false
  err := .ok
  ovr := false
  fault := false
  session := false
  command := none
  trace := []
  host := []
  hostReads := []
  lastCommand := .notWritten
  answers := []
  freeAnswers := 0
  turns := []
  freeTurns := 0

end Sys2Proof.Machine
end

