-- ==== Sys2Proof/Machine/Flags.lean ====
section
/-! DEFINITION. The STATUS word: the status codes' numbers (R33, R200) and the fields at their bits (R29, R36). -/

namespace Sys2Proof.Machine

/-- The number STATUS.ERR holds for a code (R33, R200). -/
def Code.bits : Code → BitVec 3
  | .ok => 0#3
  | .timeout => 1#3
  | .notInit => 2#3
  | .illegal => 3#3

/-- The code a command that drove the transport ends with: OK on ACK, TIMEOUT on TIMEOUT (R202). -/
def answerCode : Answer → Code
  | .ack => .ok
  | .timeout => .timeout

/-- The value of STATUS (R29): BUSY, INITED, PIXEL in bits 0 to 2, ERR in 6:4, OVR in 8, FAULT in 9, every other bit 0. -/
def State.status (s : State) : Word :=
  0#22 ++ (BitVec.ofBool s.fault ++ (BitVec.ofBool s.ovr ++ (0#1 ++ (s.err.bits ++ (0#1 ++
    (BitVec.ofBool s.pixel ++ (BitVec.ofBool s.inited ++ BitVec.ofBool s.busy)))))))

end Sys2Proof.Machine
end

