-- ==== Sys2Proof/Machine/Operands.lean ====
section
/-! DEFINITION. The operand forms and byte operators of the commands: coordinates and their range (R14, R82), the
one-bit pixel mask (R22), the rotates (R10) and the wiring transform (R141). -/

namespace Sys2Proof.Machine

/-- A coordinate pair as (x, y) when it is in range, `x < 8 and y < 8` over the unsigned bytes (R14, R82). -/
def coordinates (x y : Byte) : Option (Fin 8 × Fin 8) :=
  if h : x.toNat < 8 ∧ y.toNat < 8 then some (⟨x.toNat, h.1⟩, ⟨y.toNat, h.2⟩) else none

/-- `1 << x`, the mask of pixel x in its row (R22, R100). -/
def pixelMask (x : Fin 8) : Byte := 0x01#8 <<< x.val

/-- `rol8(v, n)` (R10). -/
def rol8 (v : Byte) (n : Fin 8) : Byte :=
  if n = 0 then v else (v <<< n.val) ||| (v >>> (8 - n.val))

/-- `ror8(v, n) = rol8(v, (8 - n) mod 8)` (R10). -/
def ror8 (v : Byte) (n : Fin 8) : Byte := rol8 v ⟨(8 - n.val) % 8, Nat.mod_lt _ (by decide)⟩

/-- The wiring transform `WXF` of a row byte (R141). -/
def wxf (b : Byte) : Byte := (b >>> 1) ||| ((b <<< 7) &&& 0x80#8)

/-- The coordinates 0 to 7, in increasing order (R15). -/
def ascending : List (Fin 8) := [0, 1, 2, 3, 4, 5, 6, 7]

/-- The coordinates 7 down to 0 (R15). -/
def descending : List (Fin 8) := [7, 6, 5, 4, 3, 2, 1, 0]

end Sys2Proof.Machine
end

