-- ==== Sys2Proof/Machine/Ops.lean ====
section
/-! DEFINITION. The named operations over the state: rows and pixels of the frame buffer, acceptance, overrun and
completion of a command, the initialisation gate, and the transport session. -/

namespace Sys2Proof.Machine

/-- `FB[y]` (R11, R21). -/
def FrameBuffer.row (fb : FrameBuffer) (y : Fin 8) : Byte :=
  match y with
  | 0 => fb.row0
  | 1 => fb.row1
  | 2 => fb.row2
  | 3 => fb.row3
  | 4 => fb.row4
  | 5 => fb.row5
  | 6 => fb.row6
  | 7 => fb.row7

/-- The frame buffer whose row y is `f y`. -/
def FrameBuffer.ofRows (f : Fin 8 → Byte) : FrameBuffer :=
  ⟨f 0, f 1, f 2, f 3, f 4, f 5, f 6, f 7⟩

/-- `FB[y] <- v` (R11). -/
def FrameBuffer.setRow (fb : FrameBuffer) (y : Fin 8) (v : Byte) : FrameBuffer :=
  .ofRows fun z => if z = y then v else fb.row z

/-- Pixel (x, y): bit x of `FB[y]` (R22). -/
def FrameBuffer.pixel (fb : FrameBuffer) (x y : Fin 8) : Bool := (fb.row y).getLsbD x.val

/-- Acceptance of a command word: BUSY <- 1 and Decode (R90, steps 1 and 2). The HOST has written a command (R234). -/
def accept (v : Word) (s : State) : State :=
  { s with busy := true, command := some (decode v), lastCommand := .written }

/-- A CMD write while BUSY = 1: OVR and FAULT are set, the word is discarded (R205). The HOST has written a command all the
same (R234). -/
def overrun (s : State) : State :=
  { s with ovr := true, fault := true, lastCommand := .written }

/-- `Complete(code)`: how every accepted command ends, by `finish` or by `raise` (R201). The LFBC has no other way of
taking an error and no return from one (R208, R209). -/
def complete (c : Code) (s : State) : State :=
  { s with
    err := c
    fault := if c = .ok then s.fault else true
    busy := false
    command := none }

/-- Steps 4 to 6 of R90 for a command other than INIT: NOT_INIT while `INITED = 0` (R92, R203), else the command's own
effect `perform`, which answers the code it ends with. -/
def gated (perform : State → Code × State) (s : State) : State :=
  if s.inited then complete (perform s).1 (perform s).2 else complete .notInit s

/-- The TRANSPORT's next answer (R62): the next one listed, past the list a free value. -/
def nextAnswer (s : State) : Answer :=
  match s.answers with
  | a :: _ => a
  | [] => Config.freeAnswer s.freeAnswers

/-- The state after the TRANSPORT's next answer has been drawn. -/
def dropAnswer (s : State) : State :=
  match s.answers with
  | _ :: rest => { s with answers := rest }
  | [] => { s with freeAnswers := s.freeAnswers + 1 }

/-- One more event of the transport trace (R12). -/
def emit (e : Event) (s : State) : State :=
  { s with trace := s.trace ++ [e] }

/-- `T_Open(a)` (R12). -/
def tOpen (a : Byte) (s : State) : Answer × State :=
  (nextAnswer s, emit (.opened a (nextAnswer s)) (dropAnswer s))

/-- `T_Write(b)` (R12). -/
def tWrite (b : Byte) (s : State) : Answer × State :=
  (nextAnswer s, emit (.wrote b (nextAnswer s)) (dropAnswer s))

/-- `T_Close()` (R12). -/
def tClose (s : State) : State := emit .closed s

/-- `SESSION <- v` (R37, R63). -/
def setSession (v : Bool) (s : State) : State := { s with session := v }

/-- The WRITEs of a session: in order, until one is answered TIMEOUT (R63). -/
def writeBytes : List Byte → State → Answer × State
  | [], s => (.ack, s)
  | b :: rest, s =>
    match (tWrite b s).1 with
    | .ack => writeBytes rest (tWrite b s).2
    | .timeout => tWrite b s

/-- OPEN and, if it is acknowledged, the WRITEs (R63). -/
def openAndWrite (a : Byte) (bytes : List Byte) (s : State) : Answer × State :=
  match (tOpen a s).1 with
  | .ack => writeBytes bytes (tOpen a s).2
  | .timeout => tOpen a s

/-- `Session(a, bytes)` (R63): closed on every path (R64). The answer is TIMEOUT if any OPEN or WRITE was answered so;
the caller raises it after the CLOSE. -/
def transfer (a : Byte) (bytes : List Byte) (s : State) : Answer × State :=
  let r := openAndWrite a bytes (setSession true s)
  (r.1, setSession false (tClose r.2))

/-- Sessions one after another, each of one byte, until one times out (R190). -/
def transferEach (a : Byte) : List Byte → State → Answer × State
  | [], s => (.ack, s)
  | b :: rest, s =>
    match (transfer a [b] s).1 with
    | .ack => transferEach a rest (transfer a [b] s).2
    | .timeout => transfer a [b] s

end Sys2Proof.Machine
end

