-- ==== Sys2Proof/Machine/DriverInit.lean ====
section
/-! DEFINITION. Driver init: INIT (44_driver_init.md). -/

namespace Sys2Proof.Machine

/-- The four command bytes in the order they are sent (R191). -/
def initCommands : List Byte :=
  [Config.initCmd 0, Config.initCmd 1, Config.initCmd 2, Config.initCmd 3]

/-- INIT's own effect (R190, R192): four sessions of one byte; INITED <- 1 only if all are acknowledged. -/
def initSequence (s : State) : Code × State :=
  let r := transferEach Config.addrW initCommands s
  match r.1 with
  | .ack => (.ok, { r.2 with inited := true })
  | .timeout => (.timeout, r.2)

/-- INIT (R190), the one command the initialisation gate lets through (R92). -/
def execInit (s : State) : Host.Outcome State Fault Refusal :=
  .next (complete (initSequence s).1 (initSequence s).2)

end Sys2Proof.Machine
end

