-- ==== Sys2Proof/Machine/Renderer.lean ====
section
/-! DEFINITION. The renderer: the frame byte sequence and FLUSH (42_renderer.md). -/

namespace Sys2Proof.Machine

/-- `FrameBytes(FB)` (R143): the base register, then rows 7 down to 0, each transformed and followed by the pad. -/
def frameBytes (fb : FrameBuffer) : List Byte :=
  Config.regBase :: descending.flatMap fun y => [wxf (fb.row y), Config.pad]

/-- The flush session (R145): FrameBytes of the frame buffer as it stands, to `ADDR_W`. -/
def flushFrame (s : State) : Code × State :=
  let r := transfer Config.addrW (frameBytes s.fb) s
  (answerCode r.1, r.2)

/-- FLUSH (R145). -/
def execFlush (s : State) : Host.Outcome State Fault Refusal :=
  .next (gated flushFrame s)

end Sys2Proof.Machine
end

