-- ==== Sys2Proof/Machine/Glyphs.lean ====
section
/-! DEFINITION. The glyph rasterizer: Paint (R170), the arrow (R172, R173) and the checkmark (R175, R176). -/

namespace Sys2Proof.Machine

/-- `Paint(lit)` (R170): every coordinate where the predicate holds is set, every other left as it was. -/
def FrameBuffer.paint (fb : FrameBuffer) (lit : Fin 8 → Fin 8 → Bool) : FrameBuffer :=
  .ofRows fun y =>
    ascending.foldl (fun row x => if lit x y then row ||| pixelMask x else row) (fb.row y)

/-- The arrow shape `P(x, v)` over the virtual row v (R173): shaft, crossbar, wing segments, corner dots. -/
def arrowShape (x v : Fin 8) : Bool :=
  let x := x.val
  let v := v.val
  (x == 3 || x == 4)
    || ((v == 3 || v == 4) && (decide (x < 2) || decide (x > 5)))
    || ((x == 2 || x == 5) && (decide (v > 3) && v != 7))
    || ((x == 1 || x == 6) && v == 5)

/-- The virtual row: `7 - y` pointing up, `y` pointing down (R172). -/
def virtualRow (u : Bool) (y : Fin 8) : Fin 8 :=
  if u then ⟨7 - y.val, Nat.lt_succ_of_le (Nat.sub_le 7 y.val)⟩ else y

/-- The checkmark `C(x, y)`, its intervals open (R175). -/
def checkmarkShape (x y : Fin 8) : Bool :=
  let x := x.val
  let y := y.val
  (x == 0 && (decide (3 < y) && decide (y < 6)))
    || ((x == 1 || x == 4) && (decide (3 < y) && decide (y < 7)))
    || ((x == 2 || x == 3) && decide (y > 4))
    || (x == 5 && (decide (1 < y) && decide (y < 6)))
    || (x == 6 && decide (y < 5))
    || (x == 7 && decide (y < 3))

/-- Paint, then flush the painted buffer; a TIMEOUT does not undo the paint (R170, R178). -/
def paintAndFlush (lit : Fin 8 → Fin 8 → Bool) (s : State) : Code × State :=
  flushFrame { s with fb := s.fb.paint lit }

/-- DRAW_ARROW u (R172). -/
def execDrawArrow (u : Bool) (s : State) : Host.Outcome State Fault Refusal :=
  .next (gated (paintAndFlush fun x y => arrowShape x (virtualRow u y)) s)

/-- DRAW_CHECKMARK (R176). -/
def execDrawCheckmark (s : State) : Host.Outcome State Fault Refusal :=
  .next (gated (paintAndFlush checkmarkShape) s)

end Sys2Proof.Machine
end

