-- ==== Sys2Proof/Machine/Pixel.lean ====
section
/-! DEFINITION. The pixel commands SET_PIXEL, CLEAR_PIXEL, CLEAR_ALL and GET_PIXEL (40_pixel_ops.md). -/

namespace Sys2Proof.Machine

/-- SET_PIXEL's frame buffer (R100): the bit set if in range, unchanged otherwise. -/
def FrameBuffer.setPixel (fb : FrameBuffer) (x y : Byte) : FrameBuffer :=
  match coordinates x y with
  | some (x, y) => fb.setRow y (fb.row y ||| pixelMask x)
  | none => fb

/-- CLEAR_PIXEL's frame buffer (R104): the target bit alone masked out if in range, unchanged otherwise. -/
def FrameBuffer.clearPixel (fb : FrameBuffer) (x y : Byte) : FrameBuffer :=
  match coordinates x y with
  | some (x, y) => fb.setRow y (fb.row y &&& ~~~ pixelMask x)
  | none => fb

/-- What GET_PIXEL reads (R112): the pixel if in range, 0 otherwise. -/
def FrameBuffer.getPixel (fb : FrameBuffer) (x y : Byte) : Bool :=
  match coordinates x y with
  | some (x, y) => fb.pixel x y
  | none => false

/-- SET_PIXEL x, y (R100). -/
def execSetPixel (x y : Byte) (s : State) : Host.Outcome State Fault Refusal :=
  .next (gated (fun s => (.ok, { s with fb := s.fb.setPixel x y })) s)

/-- CLEAR_PIXEL x, y (R104). -/
def execClearPixel (x y : Byte) (s : State) : Host.Outcome State Fault Refusal :=
  .next (gated (fun s => (.ok, { s with fb := s.fb.clearPixel x y })) s)

/-- CLEAR_ALL (R108): all eight rows. -/
def execClearAll (s : State) : Host.Outcome State Fault Refusal :=
  .next (gated (fun s => (.ok, { s with fb := .ofRows fun _ => 0x00#8 })) s)

/-- GET_PIXEL x, y (R112). -/
def execGetPixel (x y : Byte) (s : State) : Host.Outcome State Fault Refusal :=
  .next (gated (fun s => (.ok, { s with pixel := s.fb.getPixel x y })) s)

end Sys2Proof.Machine
end

