-- ==== Sys2Proof/Machine/Rotate.lean ====
section
/-! DEFINITION. The row rotates ROTATE_LEFT and ROTATE_RIGHT (41_row_rotate.md). -/

namespace Sys2Proof.Machine

/-- ROTATE_LEFT (R130): every row rotated left by one bit. -/
def execRotateLeft (s : State) : Host.Outcome State Fault Refusal :=
  .next (gated (fun s => (.ok, { s with fb := .ofRows fun y => rol8 (s.fb.row y) 1 })) s)

/-- ROTATE_RIGHT (R132): every row rotated right by one bit. -/
def execRotateRight (s : State) : Host.Outcome State Fault Refusal :=
  .next (gated (fun s => (.ok, { s with fb := .ofRows fun y => ror8 (s.fb.row y) 1 })) s)

end Sys2Proof.Machine
end

