-- ==== Sys2Proof/Machine/Dispatch.lean ====
section
/-! DEFINITION. One arm per command: what performing an accepted command does (R85, R90 steps 4 to 6). -/

namespace Sys2Proof.Machine

def exec (i : Instr) (s : State) : Host.Outcome State Fault Refusal :=
  match i with
  | .init => Sys2Proof.Machine.execInit s
  | .setPixel x y => Sys2Proof.Machine.execSetPixel x y s
  | .clearPixel x y => Sys2Proof.Machine.execClearPixel x y s
  | .clearAll => Sys2Proof.Machine.execClearAll s
  | .rotateLeft => Sys2Proof.Machine.execRotateLeft s
  | .rotateRight => Sys2Proof.Machine.execRotateRight s
  | .flush => Sys2Proof.Machine.execFlush s
  | .drawArrow u => Sys2Proof.Machine.execDrawArrow u s
  | .drawCheckmark => Sys2Proof.Machine.execDrawCheckmark s
  | .getPixel x y => Sys2Proof.Machine.execGetPixel x y s

end Sys2Proof.Machine
end

