-- ==== Sys2Proof/Machine/Agents.lean ====
section
/-! DEFINITION. The agents' moves: the HOST's accesses to the host window (R52 to R54), the CONTROLLER's transition
(R17, R90), and whose move it is (R30, R210 (d)). -/

namespace Sys2Proof.Machine

/-- Host-window offset of CMD (R28, R51). -/
def cmdOffset : Nat := 0x0

/-- Host-window offset of STATUS (R29, R51). -/
def statusOffset : Nat := 0x4

/-- A read returns a word to the HOST and changes no state of the LFBC (R53, R59 (c)). -/
def deliver (v : Word) (s : State) : State :=
  { s with hostReads := s.hostReads ++ [v] }

/-- What a STATUS read makes of the HOST's last command: a read with BUSY = 0 after it was written (R234). -/
def afterStatusRead (busy : Bool) (l : LastCommand) : LastCommand :=
  match l, busy with
  | .written, false => .readBack
  | l, _ => l

/-- A STATUS read: the HOST gets the word and sees BUSY (R53, R234). -/
def readStatus (s : State) : State :=
  { deliver s.status s with lastCommand := afterStatusRead s.busy s.lastCommand }

/-- A CMD write: accepted while BUSY = 0, an overrun while BUSY = 1 (R52). -/
def writeCmd (v : Word) (s : State) : State :=
  if s.busy then overrun s else accept v s

/-- One action of the HOST. CMD reads as 0, a STATUS write is ignored (R28, R29, R53); an access the interface does not
have is BadHostAccess (R54). WAIT is taken once BUSY = 0 and returns that STATUS read (R89; log entry 5). -/
def hostAct (a : HostAction) (s : State) : Host.Outcome State Fault Refusal :=
  match a with
  | .write offset width v =>
    if width = 4 ∧ offset = cmdOffset then .next (writeCmd v s)
    else if width = 4 ∧ offset = statusOffset then .next s
    else .fault (.badHostAccess offset width)
  | .read offset width =>
    if width = 4 ∧ offset = cmdOffset then .next (deliver 0#32 s)
    else if width = 4 ∧ offset = statusOffset then .next (readStatus s)
    else .fault (.badHostAccess offset width)
  | .wait => .next (readStatus s)

/-- The CONTROLLER's transition: the command in execution runs to its completion (R17, R90). An illegal word completes
with ILLEGAL and no other effect (R90 step 3, R204). -/
def controllerAct (s : State) : Host.Outcome State Fault Refusal :=
  match s.command with
  | some (.command i) => exec i s
  | some (.illegal _) => .next (complete .illegal s)
  | none => .next s

/-- Whether the HOST has an action it can take now; a WAIT goes on polling while BUSY = 1 (R89). -/
def hostReady (s : State) : Bool :=
  match s.host with
  | [] => false
  | .wait :: _ => !s.busy
  | .write _ _ _ :: _ => true
  | .read _ _ :: _ => true

/-- Whether the CONTROLLER has a command in execution (R38). -/
def controllerReady (s : State) : Bool := s.command.isSome

/-- Who moves when both can: the next listed turn, past the list a free value (R30, I16; log entry 3). -/
def nextTurn (s : State) : Agent :=
  match s.turns with
  | t :: _ => t
  | [] => Config.freeTurn s.freeTurns

/-- The state after a contested turn has been drawn. -/
def dropTurn (s : State) : State :=
  match s.turns with
  | _ :: rest => { s with turns := rest }
  | [] => { s with freeTurns := s.freeTurns + 1 }

/-- The HOST takes its next action. -/
def hostMove (s : State) : Host.Outcome State Fault Refusal :=
  match s.host with
  | a :: rest => hostAct a { s with host := rest }
  | [] => .next s

/-- The HOST or the CONTROLLER moves; when neither can, the LFBC is idle and keeps all its state (R208, R218). -/
def move (s : State) : Host.Outcome State Fault Refusal :=
  match hostReady s, controllerReady s with
  | false, false => .next s
  | true, false => hostMove s
  | false, true => controllerAct s
  | true, true =>
    match nextTurn s with
    | .host => hostMove (dropTurn s)
    | .controller => controllerAct (dropTurn s)

/-- A command word put in execution with the CONTROLLER to move next: what an accepted CMD write leaves (R90 step 1),
and the next contested turn, if there is one, the CONTROLLER's. -/
def presented (v : Word) (s : State) : State :=
  let t := accept v s
  if hostReady t then { t with turns := .controller :: t.turns } else t

end Sys2Proof.Machine
end

