-- ==== Sys2Proof/Machine/Step.lean ====
section
/-! DEFINITION. One step of the machine. -/

namespace Sys2Proof.Machine

/-- One transition: the HOST's next access, or the CONTROLLER's command, or idling (R8, R17). -/
def step (s : State) : Host.Outcome State Fault Refusal := move s

/-- The state in which the very next step runs the command word `w`. The LFBC fetches nothing (R27): a command comes to
run by an accepted CMD write, and this stands for that write (log entry 10). -/
def State.withFetchWord (s : State) (nbits w : Nat) : State := presented (tableWord nbits w) s

end Sys2Proof.Machine
end

