-- ==== Sys2Proof/Assembly.lean ====
section
/-! DEFINITION. A line of the LFBC's assembler: the ten commands, the HOST's directives (R89) and the pseudo-instructions
(R84). Operands are numbers as written; which of them have an encoding is checked in WellFormed. -/

namespace Sys2Proof

/-- A field of the STATUS word, as an EXPECT directive names it (R29, R89). -/
inductive StatusField where
  | busy
  | inited
  | pixel
  | err
  | ovr
  | fault
  deriving DecidableEq, Repr

/-- One line of a program (R84, R89). -/
inductive Line where
  | init
  | setPixel (x y : Nat)
  | clearPixel (x y : Nat)
  | clearAll
  | rotateLeft
  | rotateRight
  | flush
  | drawArrow (up : Bool)
  | drawCheckmark
  | getPixel (x y : Nat)
  /-- Directive WAIT: read STATUS until BUSY = 0 (R89). -/
  | wait
  /-- Directive EXPECT field = value: a check the HOST makes on a STATUS read (R89). -/
  | expect (f : StatusField) (value : Nat)
  /-- Directive .word v: write v to CMD as it stands (R89). -/
  | word (v : Nat)
  | showArrow (up : Bool)
  | showCheckmark
  | putPixel (x y : Nat) (lit : Bool)
  | rotateLeftN (n : Nat)
  | rotateRightN (n : Nat)
  | blank
  deriving DecidableEq, Repr

end Sys2Proof
end

