-- ==== Sys2Proof/Safety.lean ====
section
/-! DEFINITION. What statements about the LFBC are stated in: a run without errors (R35, R210), its end (R234), the shape of
the transport trace (R63, R65), the TRANSPORT's answers to come (R62), and the invariants of the machine. -/

namespace Sys2Proof.Machine

/-- No error has happened: STATUS.FAULT = 0, the premise of a claim about a run (R35, R210). -/
def State.Safe (s : State) : Prop := s.fault = false

/-- The HOST has no CMD write to come. -/
def State.NoCommandToCome (s : State) : Prop := ∀ v : Word, .write cmdOffset 4 v ∉ s.host

/-- The HOST program has ended: its last command is written, STATUS has then been read with BUSY = 0, and no command is in
execution (R234). Reads may still come. -/
structure State.Ended (s : State) : Prop where
  readBack : s.lastCommand = .readBack
  idle : s.busy = false
  last : s.NoCommandToCome

/-- The result of a run (R234): the frame buffer, INITED, the STATUS word, and the transport trace with the answers drawn. -/
structure Result where
  fb : FrameBuffer
  inited : Bool
  status : Word
  trace : List Event
  deriving DecidableEq, Repr

/-- The result a state shows. -/
def State.result (s : State) : Result := ⟨s.fb, s.inited, s.status, s.trace⟩

/-- The k-th answer (from 0) the TRANSPORT gives from this state on: listed, or past the list a free value (R62). -/
def State.answerAt (s : State) (k : Nat) : Answer :=
  match s.answers[k]? with
  | some a => a
  | none => Config.freeAnswer (s.freeAnswers + (k - s.answers.length))

/-- The next `n` answers are all ACK. -/
def State.AllAck (s : State) (n : Nat) : Prop := ∀ k < n, s.answerAt k = .ack

/-- The first TIMEOUT comes at answer `k`. -/
def State.TimeoutAt (s : State) (k : Nat) : Prop := s.AllAck k ∧ s.answerAt k = .timeout

/-- The trace of a session whose answers are all ACK (R63). -/
def ackedSession (a : Byte) (bytes : List Byte) : List Event :=
  .opened a .ack :: (bytes.map fun b => .wrote b .ack) ++ [.closed]

/-- The trace of a session whose OPEN is answered TIMEOUT (R63). -/
def unopenedSession (a : Byte) : List Event := [.opened a .timeout, .closed]

/-- The trace of a session cut at the WRITE of `b`, the first one answered TIMEOUT, after `sent` was acknowledged (R63). -/
def cutSession (a : Byte) (sent : List Byte) (b : Byte) : List Event :=
  .opened a .ack :: (sent.map fun b => .wrote b .ack) ++ [.wrote b .timeout, .closed]

/-- The trace of a session of `bytes` whose first TIMEOUT is its k-th answer: OPEN's for k = 0, else that of WRITE k - 1 (R63). -/
def timedOutSession (a : Byte) (bytes : List Byte) : Nat → List Event
  | 0 => unopenedSession a
  | n + 1 => cutSession a (bytes.take n) (bytes.getD n 0x00#8)

/-- The trace of an INIT whose four sessions are acknowledged (R190). -/
def initTrace : List Event :=
  ackedSession Config.addrW [Config.initCmd 0] ++ ackedSession Config.addrW [Config.initCmd 1]
    ++ ackedSession Config.addrW [Config.initCmd 2] ++ ackedSession Config.addrW [Config.initCmd 3]

/-- The bytes on the wire of one session's events: the address, then every acknowledged WRITE (R12). -/
def wireBytes : List Event → List Byte
  | [] => []
  | .opened a _ :: rest => a :: wireBytes rest
  | .wrote b .ack :: rest => b :: wireBytes rest
  | .wrote _ .timeout :: rest => wireBytes rest
  | .closed :: rest => wireBytes rest

/-- Where a scan of the transport trace stands: no session open, a session going on, or a session that timed out. -/
inductive Phase where
  | shut
  | live
  | failed
  deriving DecidableEq, Repr

/-- The phase an answer leaves a session in (R63). -/
def Phase.after : Answer → Phase
  | .ack => .live
  | .timeout => .failed

/-- One event of a scan: an OPEN only with no session open and with ADDR_W (R61, R65), a WRITE only in a session that has not
timed out (R63), a CLOSE only in a session. -/
def Phase.next : Phase → Event → Option Phase
  | .shut, .opened a r => if a = Config.addrW then some (Phase.after r) else none
  | .live, .wrote _ r => some (Phase.after r)
  | .live, .closed => some .shut
  | .failed, .closed => some .shut
  | _, _ => none

/-- A scan of a trace from a phase. -/
def Phase.scan : Phase → List Event → Option Phase
  | p, [] => some p
  | p, e :: rest =>
    match p.next e with
    | some q => q.scan rest
    | none => none

/-- Sessions never nest or interleave, each is closed, each goes to ADDR_W, and none goes on after a TIMEOUT. -/
def WellBracketed (tr : List Event) : Prop := Phase.scan .shut tr = some .shut

/-- The invariant of every step: BUSY is 1 exactly while a command is in execution (R30, R38), no session is open between
transitions (R37), every error and every overrun has left FAULT set (R35), the trace is well bracketed (R61, R63 to R65), and
BUSY = 0 since the HOST read it so after its last command (R30, R52). -/
structure State.Inv (s : State) : Prop where
  busy_iff : s.busy = s.command.isSome
  no_session : s.session = false
  err_fault : s.err ≠ .ok → s.fault = true
  ovr_fault : s.ovr = true → s.fault = true
  bracketed : WellBracketed s.trace
  read_idle : s.lastCommand = .readBack → s.busy = false

/-- INITED = 1 only with the acknowledged INIT sequence in the trace (R25, R192). -/
def State.InitEvidence (s : State) : Prop := s.inited = true → initTrace <:+: s.trace

/-- The number of lit pixels of a row (R135). -/
def FrameBuffer.litInRow (fb : FrameBuffer) (y : Fin 8) : Nat := (ascending.filter fun x => fb.pixel x y).length

/-- Commands performed one after another (R70), as long as each answers a next state. -/
def execAll : List Instr → State → Option State
  | [], s => some s
  | i :: rest, s =>
    match exec i s with
    | .next t => execAll rest t
    | _ => none

/-- The commands that drive the transport (R39, R66). -/
def drivesTransport : Instr → Bool
  | .init | .flush | .drawArrow _ | .drawCheckmark => true
  | .setPixel _ _ | .clearPixel _ _ | .clearAll | .rotateLeft | .rotateRight | .getPixel _ _ => false

/-- The commands that may write the frame buffer (R23, R39). -/
def writesFrameBuffer : Instr → Bool
  | .setPixel _ _ | .clearPixel _ _ | .clearAll | .rotateLeft | .rotateRight | .drawArrow _ | .drawCheckmark => true
  | .init | .flush | .getPixel _ _ => false

/-- The commands through which the frame buffer can be observed (R23). -/
def showsFrameBuffer : Instr → Bool
  | .getPixel _ _ | .flush | .drawArrow _ | .drawCheckmark => true
  | .init | .setPixel _ _ | .clearPixel _ _ | .clearAll | .rotateLeft | .rotateRight => false

end Sys2Proof.Machine
end

