-- ==== Sys2Proof/Certificates/Slice0/Obligations.lean ====
section
/-! DEFINITION. The statements for the provers, from the spec's numbered rules. A statement about an instruction gives the
next state whole: every field it does not name is the field of the state before. -/

open Sys2Proof Sys2Proof.Machine

/-! ### Encoding and decoding (30_encoding.md) -/

/-- R85: the word of every command, as the opcode map gives it. -/
def Obligations.EncodingsFollowOpcodeMap : Prop :=
  (encode .init).toNat = 0x01000000 ∧ (encode .clearAll).toNat = 0x04000000 ∧
  (encode .rotateLeft).toNat = 0x05000000 ∧ (encode .rotateRight).toNat = 0x06000000 ∧
  (encode .flush).toNat = 0x07000000 ∧ (encode .drawCheckmark).toNat = 0x09000000 ∧
  (encode (.drawArrow false)).toNat = 0x08000000 ∧ (encode (.drawArrow true)).toNat = 0x08000001 ∧
  ∀ x y : Byte,
    (encode (.setPixel x y)).toNat = 0x02000000 + 0x100 * x.toNat + y.toNat ∧
    (encode (.clearPixel x y)).toNat = 0x03000000 + 0x100 * x.toNat + y.toNat ∧
    (encode (.getPixel x y)).toNat = 0x0A000000 + 0x100 * x.toNat + y.toNat

/-- R87, R85: decoding the word of a command gives the command back, for every command and every operand. -/
def Obligations.DecodeOfEncode : Prop := ∀ i : Instr, decode (encode i) = .command i

/-- R87: a word that decodes to a command is that command's own word, so no two words decode to one command. -/
def Obligations.EncodeOfDecode : Prop := ∀ (w : Word) (i : Instr), decode w = .command i → encode i = w

/-- R86, R81: the illegal words are exactly those with an unassigned opcode, or with a must-be-zero bit of their format set. -/
def Obligations.IllegalWordsExactly : Prop :=
  ∀ w : Word, (∃ why, decode w = .illegal why) ↔
    (w.toNat / 2 ^ 24 = 0 ∨ 0x0A < w.toNat / 2 ^ 24 ∨
      (w.toNat / 2 ^ 24 ∈ [0x01, 0x04, 0x05, 0x06, 0x07, 0x09] ∧ w.toNat % 2 ^ 24 ≠ 0) ∨
      (w.toNat / 2 ^ 24 ∈ [0x02, 0x03, 0x0A] ∧ w.toNat / 2 ^ 16 % 2 ^ 8 ≠ 0) ∨
      (w.toNat / 2 ^ 24 = 0x08 ∧ w.toNat / 2 % 2 ^ 23 ≠ 0))

/-- Words of 95_test_vectors.md L2.1, written from rules R81 and R85. -/
def Obligations.SpecWordsDecode : Prop :=
  decode 0x01000000#32 = .command .init ∧ decode 0x02000303#32 = .command (.setPixel 3#8 3#8) ∧
  decode 0x0200FF00#32 = .command (.setPixel 255#8 0#8) ∧ decode 0x03000403#32 = .command (.clearPixel 4#8 3#8) ∧
  decode 0x06000000#32 = .command .rotateRight ∧ decode 0x07000000#32 = .command .flush ∧
  decode 0x08000001#32 = .command (.drawArrow true) ∧ decode 0x0A000707#32 = .command (.getPixel 7#8 7#8) ∧
  decode 0x02010303#32 = .illegal .reservedBits ∧ decode 0x08000002#32 = .illegal .reservedBits ∧
  decode 0x00000000#32 = .illegal .unassignedOpcode ∧ decode 0x0B000000#32 = .illegal .unassignedOpcode

/-! ### The step and the agents (00_scope.md, 20_memory.md, 60_exceptions.md) -/

/-- R17, R90: while the decoded command is held and it is the CONTROLLER's turn, the step is exec of it, with nothing around it
but the drawing of a contested turn (log entry 3); and a word presented by `withFetchWord` is run by the very next step (log entry
10; that the HOST has then written a command is log entry 23). -/
def Obligations.StepRunsDecodedCommand : Prop :=
  (∀ (s : State) (i : Instr), s.command = some (.command i) → hostReady s = false → step s = exec i s) ∧
  (∀ (s : State) (i : Instr) (rest : List Agent), s.command = some (.command i) → hostReady s = true →
    s.turns = .controller :: rest → step s = exec i { s with turns := rest }) ∧
  (∀ (s : State) (nbits w : Nat) (i : Instr), decode (tableWord nbits w) = .command i →
    step (s.withFetchWord nbits w) =
      exec i { s with busy := true, command := some (.command i), lastCommand := .written })

/-- R8, R30, R89: each step is one agent's move. The HOST acts when no command is in execution or the turn is its own, a WAIT
lets the CONTROLLER go on while BUSY = 1, and past the listed turns either may move (the model's choice, log entries 3, 5, 8). -/
def Obligations.StepMovesOneAgent : Prop :=
  ∀ s : State,
    (s.command = none → s.host = [] → step s = .next s) ∧
    (∀ a rest, s.command = none → s.busy = false → s.host = a :: rest → step s = hostAct a { s with host := rest }) ∧
    (∀ d, s.command = some d → s.host = [] → step s = controllerAct s) ∧
    (∀ d rest, s.command = some d → s.busy = true → s.host = .wait :: rest → step s = controllerAct s) ∧
    (∀ d a rest more, s.command = some d → s.host = a :: rest → a ≠ .wait → s.turns = .host :: more →
      step s = hostAct a { s with host := rest, turns := more }) ∧
    (∀ d a rest more, s.command = some d → s.host = a :: rest → a ≠ .wait → s.turns = .controller :: more →
      step s = controllerAct { s with turns := more }) ∧
    (∀ d a rest, s.command = some d → s.host = a :: rest → a ≠ .wait → s.turns = [] →
      step s = hostAct a { s with host := rest, freeTurns := s.freeTurns + 1 } ∨
      step s = controllerAct { s with freeTurns := s.freeTurns + 1 })

/-- R52, R205: a CMD write is accepted while BUSY = 0, and while BUSY = 1 sets OVR and FAULT and is otherwise discarded (R90). On
the HOST's side a command has then been written, a dropped one too: that is the model's reading of R234, log entry 23. -/
def Obligations.CmdWriteAcceptedOrOverrun : Prop :=
  ∀ (s : State) (v : Word),
    (s.busy = false →
      hostAct (.write 0x0 4 v) s =
        .next { s with busy := true, command := some (decode v), lastCommand := .written }) ∧
    (s.busy = true → hostAct (.write 0x0 4 v) s = .next { s with ovr := true, fault := true, lastCommand := .written })

/-- R53, R28: a STATUS read returns the STATUS word, a CMD read returns 0, a STATUS write is ignored; none changes LFBC state: only what the HOST
has read (log entry 5), and with BUSY = 0 that its last command is read back (R234, log entry 23). -/
def Obligations.WindowReadsAndIgnoredWrite : Prop :=
  ∀ (s : State) (v : Word),
    hostAct (.read 0x4 4) s = .next { s with
      hostReads := s.hostReads ++ [s.status]
      lastCommand := if s.lastCommand = .written ∧ s.busy = false then .readBack else s.lastCommand } ∧
    hostAct (.read 0x0 4) s = .next { s with hostReads := s.hostReads ++ [0x00000000#32] } ∧
    hostAct (.write 0x4 4 v) s = .next s

/-- R54: every access of another width or at another offset is the fault BadHostAccess. -/
def Obligations.UnsupportedAccessFaults : Prop :=
  ∀ (s : State) (offset width : Nat) (v : Word), ¬ (width = 4 ∧ (offset = 0x0 ∨ offset = 0x4)) →
    hostAct (.write offset width v) s = .fault (.badHostAccess offset width) ∧
    hostAct (.read offset width) s = .fault (.badHostAccess offset width)

/-- R29, R31, R33, R36: the fields of the STATUS word at their bits, every reserved bit 0. -/
def Obligations.StatusWordFields : Prop :=
  ∀ s : State,
    s.status.getLsbD 0 = s.busy ∧ s.status.getLsbD 1 = s.inited ∧ s.status.getLsbD 2 = s.pixel ∧
    s.status.toNat / 2 ^ 4 % 2 ^ 3 =
      (match s.err with | .ok => 0 | .timeout => 1 | .notInit => 2 | .illegal => 3) ∧
    s.status.getLsbD 8 = s.ovr ∧ s.status.getLsbD 9 = s.fault ∧
    ∀ k : Nat, k = 3 ∨ k = 7 ∨ 10 ≤ k → s.status.getLsbD k = false

/-- R40, R230: the state after reset; no command is in execution, and the LFBC takes the first CMD write of any HOST
(R52, R90; that the write is recorded on the HOST's side is log entry 23). -/
def Obligations.ResetStateIsBlank : Prop :=
  (∀ y : Fin 8, State.reset.fb.row y = 0x00#8) ∧ State.reset.inited = false ∧ State.reset.busy = false ∧
  State.reset.pixel = false ∧ State.reset.err = .ok ∧ State.reset.ovr = false ∧ State.reset.fault = false ∧
  State.reset.session = false ∧ State.reset.command = none ∧ State.reset.trace = [] ∧
  State.reset.status = 0x00000000#32 ∧
  ∀ (v : Word) (rest : List HostAction), step { State.reset with host := .write 0x0 4 v :: rest } =
    .next { State.reset with host := rest, busy := true, command := some (decode v), lastCommand := .written }

/-! ### Completion, errors and the write table -/

/-- R201: every accepted word, legal or not, runs to completion: ERR is written, FAULT is set if the code is not OK and kept
otherwise, BUSY falls, no command is left in execution and every session it opened is closed. -/
def Obligations.AcceptedCommandCompletes : Prop :=
  ∀ (s : State) (d : Decoded), s.command = some d →
    ∃ t, controllerAct s = .next t ∧ t.busy = false ∧ t.command = none ∧
      t.fault = (s.fault || decide (t.err ≠ .ok)) ∧ (s.session = false → t.session = false) ∧ t.ovr = s.ovr

/-- R204: an illegal word completes with ERR = ILLEGAL and FAULT = 1, before the initialisation gate and with no other effect. -/
def Obligations.IllegalWordCompletes : Prop :=
  ∀ (s : State) (v : Word) (why : Illegal), decode v = .illegal why → s.command = some (decode v) →
    controllerAct s = .next { s with err := .illegal, fault := true, busy := false, command := none }

/-- R92, R203: with INITED = 0 every command other than INIT completes with NOT_INIT and no effect; INIT never raises it. -/
def Obligations.InitialisationGate : Prop :=
  (∀ (s : State) (i : Instr), i ≠ .init → s.inited = false →
    exec i s = .next { s with err := .notInit, fault := true, busy := false, command := none }) ∧
  (∀ s : State, ∃ t, exec .init s = .next t ∧ t.err ≠ .notInit)

/-- R200: TIMEOUT is raised only by INIT, FLUSH, DRAW_ARROW and DRAW_CHECKMARK, ILLEGAL by no legal command. -/
def Obligations.CodesByCommand : Prop :=
  ∀ (s : State) (i : Instr), ∃ t, exec i s = .next t ∧ t.err ≠ .illegal ∧
    (t.err = .timeout → drivesTransport i = true) ∧ (t.err = .notInit → i ≠ .init ∧ s.inited = false)

/-- R39, frame of SET_PIXEL, CLEAR_PIXEL, CLEAR_ALL, ROTATE_LEFT, ROTATE_RIGHT and GET_PIXEL: ERR, FAULT, BUSY and the held command;
beside them FB for the first five, and PIXEL for GET_PIXEL. -/
def Obligations.FrameOfSilentCommands : Prop :=
  ∀ (s t : State) (i : Instr), drivesTransport i = false → exec i s = .next t →
    (writesFrameBuffer i = true →
      t = { s with fb := t.fb, err := t.err, fault := t.fault, busy := t.busy, command := t.command }) ∧
    (writesFrameBuffer i = false →
      t = { s with pixel := t.pixel, err := t.err, fault := t.fault, busy := t.busy, command := t.command })

/-- R39, R148, frame of FLUSH: only the transport (trace, answers drawn, SESSION), ERR, FAULT, BUSY and the held command. -/
def Obligations.FrameOfFlush : Prop :=
  ∀ (s t : State), exec .flush s = .next t →
    t = { s with trace := t.trace, answers := t.answers, freeAnswers := t.freeAnswers, session := t.session
                 err := t.err, fault := t.fault, busy := t.busy, command := t.command }

/-- R39, frame of DRAW_ARROW and DRAW_CHECKMARK: FLUSH's frame and FB. -/
def Obligations.FrameOfGlyphs : Prop :=
  ∀ (s t : State) (i : Instr), writesFrameBuffer i = true → drivesTransport i = true → exec i s = .next t →
    t = { s with fb := t.fb, trace := t.trace, answers := t.answers, freeAnswers := t.freeAnswers
                 session := t.session, err := t.err, fault := t.fault, busy := t.busy, command := t.command }

/-- R194, R39, frame of INIT: FLUSH's frame and INITED; and every byte it sends is one of the four command bytes. -/
def Obligations.FrameOfInit : Prop :=
  ∀ (s t : State), exec .init s = .next t →
    t = { s with inited := t.inited, trace := t.trace, answers := t.answers, freeAnswers := t.freeAnswers
                 session := t.session, err := t.err, fault := t.fault, busy := t.busy, command := t.command } ∧
    ∃ events, t.trace = s.trace ++ events ∧
      ∀ b r, Event.wrote b r ∈ events → ∃ k : Fin 4, b = Config.initCmd k

/-- R32: over every step, STATUS.PIXEL changes only where a GET_PIXEL completes with ERR = OK; no other command, no illegal word
and no HOST access changes it. -/
def Obligations.PixelOnlyByGetPixel : Prop :=
  ∀ s t : State, step s = .next t → t.pixel ≠ s.pixel →
    t.err = .ok ∧ ∃ x y, s.command = some (.command (.getPixel x y))

/-! ### Pixel commands (40_pixel_ops.md) -/

/-- R100, R101: SET_PIXEL sets its pixel when in range, keeps every other pixel, and out of range keeps them all; ERR = OK. -/
def Obligations.SetPixelEffect : Prop :=
  ∀ (s : State) (x y : Byte), s.inited = true →
    ∃ f, exec (.setPixel x y) s = .next { s with fb := f, err := .ok, busy := false, command := none } ∧
      ∀ c r : Fin 8, f.pixel c r =
        if c.val = x.toNat ∧ r.val = y.toNat then true else s.fb.pixel c r

/-- R104, R105: CLEAR_PIXEL clears its pixel alone when in range, and out of range changes none; ERR = OK. -/
def Obligations.ClearPixelEffect : Prop :=
  ∀ (s : State) (x y : Byte), s.inited = true →
    ∃ f, exec (.clearPixel x y) s = .next { s with fb := f, err := .ok, busy := false, command := none } ∧
      ∀ c r : Fin 8, f.pixel c r =
        if c.val = x.toNat ∧ r.val = y.toNat then false else s.fb.pixel c r

/-- R108, R109: CLEAR_ALL clears all eight rows, and GET_PIXEL then gives PIXEL = 0 for every coordinate in range. -/
def Obligations.ClearAllEffect : Prop :=
  ∀ s : State, s.inited = true →
    ∃ t, exec .clearAll s = .next t ∧
      t = { s with fb := t.fb, err := .ok, busy := false, command := none } ∧
      (∀ y : Fin 8, t.fb.row y = 0x00#8) ∧
      ∀ x y : Byte, x.toNat < 8 → y.toNat < 8 → ∃ u, exec (.getPixel x y) t = .next u ∧ u.pixel = false

/-- R112: GET_PIXEL writes the pixel into STATUS.PIXEL when in range, and 0 out of range. -/
def Obligations.GetPixelEffect : Prop :=
  ∀ (s : State) (x y : Byte), s.inited = true →
    ∃ p, exec (.getPixel x y) s = .next { s with pixel := p, err := .ok, busy := false, command := none } ∧
      (∀ c r : Fin 8, c.val = x.toNat → r.val = y.toNat → p = s.fb.pixel c r) ∧
      (8 ≤ x.toNat ∨ 8 ≤ y.toNat → p = false)

/-- R101: SET_PIXEL then GET_PIXEL of the same coordinate gives PIXEL = 1 in range; GET_PIXEL of any other coordinate gives what it
gave before; out of range the entire buffer is unchanged. -/
def Obligations.SetPixelLaw : Prop :=
  ∀ (s t : State) (x y : Byte), s.inited = true → exec (.setPixel x y) s = .next t →
    (x.toNat < 8 → y.toNat < 8 → ∃ u, exec (.getPixel x y) t = .next u ∧ u.pixel = true) ∧
    (∀ c r : Byte, c.toNat < 8 → r.toNat < 8 → ¬ (c = x ∧ r = y) →
      ∃ u v, exec (.getPixel c r) t = .next u ∧ exec (.getPixel c r) s = .next v ∧ u.pixel = v.pixel) ∧
    (8 ≤ x.toNat ∨ 8 ≤ y.toNat → t.fb = s.fb)

/-- R105: the law of CLEAR_PIXEL, and that SET_PIXEL followed by CLEAR_PIXEL leaves the pixel 0 and every other as it was. -/
def Obligations.ClearPixelLaw : Prop :=
  (∀ (s t : State) (x y : Byte), s.inited = true → exec (.clearPixel x y) s = .next t →
    (x.toNat < 8 → y.toNat < 8 → ∃ u, exec (.getPixel x y) t = .next u ∧ u.pixel = false) ∧
    (∀ c r : Fin 8, ¬ (c.val = x.toNat ∧ r.val = y.toNat) → t.fb.pixel c r = s.fb.pixel c r) ∧
    (8 ≤ x.toNat ∨ 8 ≤ y.toNat → t.fb = s.fb)) ∧
  (∀ (s : State) (x y : Byte), s.inited = true →
    ∃ t u, exec (.setPixel x y) s = .next t ∧ exec (.clearPixel x y) t = .next u ∧
      ∀ c r : Fin 8, u.fb.pixel c r = if c.val = x.toNat ∧ r.val = y.toNat then false else s.fb.pixel c r)

/-- R113: GET_PIXEL changes no frame-buffer bit and emits no transport event, and gives the same PIXEL again after any commands
that write no frame buffer. -/
def Obligations.GetPixelLaw : Prop :=
  ∀ (s t : State) (x y : Byte), exec (.getPixel x y) s = .next t →
    t.fb = s.fb ∧ t.trace = s.trace ∧
    ∀ (between : List Instr) (u v : State), s.inited = true → (∀ i ∈ between, writesFrameBuffer i = false) →
      execAll between t = some u → exec (.getPixel x y) u = .next v → v.pixel = t.pixel

/-- R115, R206: an out-of-range coordinate is never an error and moves no pixel. -/
def Obligations.OutOfRangeIsSilent : Prop :=
  ∀ (s : State) (x y : Byte), s.inited = true → 8 ≤ x.toNat ∨ 8 ≤ y.toNat →
    exec (.setPixel x y) s = .next { s with err := .ok, busy := false, command := none } ∧
    exec (.clearPixel x y) s = .next { s with err := .ok, busy := false, command := none } ∧
    exec (.getPixel x y) s = .next { s with pixel := false, err := .ok, busy := false, command := none }

/-! ### Row rotates (41_row_rotate.md) -/

/-- R130, R131: ROTATE_LEFT, as numbers per row and pixel by pixel. -/
def Obligations.RotateLeftEffect : Prop :=
  ∀ s : State, s.inited = true →
    ∃ f, exec .rotateLeft s = .next { s with fb := f, err := .ok, busy := false, command := none } ∧
      (∀ y : Fin 8, (f.row y).toNat = 2 * (s.fb.row y).toNat % 256 + (s.fb.row y).toNat / 128) ∧
      ∀ x y : Fin 8, f.pixel x y = s.fb.pixel (x + 7) y ∧ f.pixel (x + 1) y = s.fb.pixel x y

/-- R132, R133: ROTATE_RIGHT, as numbers per row and pixel by pixel. -/
def Obligations.RotateRightEffect : Prop :=
  ∀ s : State, s.inited = true →
    ∃ f, exec .rotateRight s = .next { s with fb := f, err := .ok, busy := false, command := none } ∧
      (∀ y : Fin 8, (f.row y).toNat = (s.fb.row y).toNat / 2 + 128 * ((s.fb.row y).toNat % 2)) ∧
      ∀ x y : Fin 8, f.pixel x y = s.fb.pixel (x + 1) y ∧ f.pixel (x + 7) y = s.fb.pixel x y

/-- R133: the rotates undo one another, in either order; the pixel form of ROTATE_RIGHT. -/
def Obligations.RotatesAreInverse : Prop :=
  ∀ s : State, s.inited = true →
    (∃ t, execAll [.rotateLeft, .rotateRight] s = some t ∧ t.fb = s.fb) ∧
    (∃ t, execAll [.rotateRight, .rotateLeft] s = some t ∧ t.fb = s.fb) ∧
    (∃ t, exec .rotateRight s = .next t ∧ ∀ x y : Fin 8, t.fb.pixel (x + 7) y = s.fb.pixel x y) ∧
    (∀ b : Byte, ror8 (rol8 b 1) 1 = b ∧ rol8 (ror8 b 1) 1 = b)

/-- R134: eight rotates of one kind return the frame buffer, and no smaller count does so for every content. -/
def Obligations.RotatePeriodIsEight : Prop :=
  (∀ s : State, s.inited = true →
    (∃ t, execAll (List.replicate 8 .rotateLeft) s = some t ∧ t.fb = s.fb) ∧
    (∃ t, execAll (List.replicate 8 .rotateRight) s = some t ∧ t.fb = s.fb)) ∧
  (∀ (s : State) (k : Fin 8), s.inited = true → s.fb.row 0 = 0x01#8 →
    ∃ t, execAll (List.replicate k.val .rotateLeft) s = some t ∧ t.fb.row 0 = 0x01#8 <<< k.val) ∧
  (∀ k : Nat, 0 < k → k < 8 →
    ∃ s t u, s.inited = true ∧ execAll (List.replicate k .rotateLeft) s = some t ∧ t.fb ≠ s.fb ∧
      execAll (List.replicate k .rotateRight) s = some u ∧ u.fb ≠ s.fb)

/-- R135: each rotate acts on every row by one map of that row alone, and keeps the number of lit pixels of each row. -/
def Obligations.RotatesKeepRows : Prop :=
  ∀ i : Instr, i = .rotateLeft ∨ i = .rotateRight →
    ∃ g : Byte → Byte, ∀ s : State, s.inited = true →
      ∃ t, exec i s = .next t ∧ ∀ y : Fin 8, t.fb.row y = g (s.fb.row y) ∧ t.fb.litInRow y = s.fb.litInRow y

/-- R136: WXF is the rotate right by one; after one ROTATE_LEFT an acknowledged FLUSH sends each row as it stood before. -/
def Obligations.FlushAfterRotateLeft : Prop :=
  (∀ b : Byte, wxf b = ror8 b 1 ∧ wxf (rol8 b 1) = b) ∧
  ∀ s : State, s.inited = true → s.AllAck 18 →
    ∃ t, execAll [.rotateLeft, .flush] s = some t ∧
      t.trace = s.trace ++ ackedSession Config.addrW
        [0x00#8, s.fb.row 7, 0x00#8, s.fb.row 6, 0x00#8, s.fb.row 5, 0x00#8, s.fb.row 4, 0x00#8,
          s.fb.row 3, 0x00#8, s.fb.row 2, 0x00#8, s.fb.row 1, 0x00#8, s.fb.row 0, 0x00#8]

/-! ### Renderer and transport (20_memory.md, 42_renderer.md) -/

/-- R141: the wiring transform, bit by bit and as a number. -/
def Obligations.WiringTransformBits : Prop :=
  ∀ b : Byte, wxf b = ror8 b 1 ∧ (wxf b).toNat = b.toNat / 2 + 128 * (b.toNat % 2) ∧
    ∀ i : Fin 8, (wxf b).getLsbD i.val = b.getLsbD ((i.val + 1) % 8)

/-- R142: WXF is a bijection with inverse rol8(b, 1), takes the values the rule lists, is no involution, returns after eight
applications and keeps the number of 1 bits. -/
def Obligations.WiringTransformProperties : Prop :=
  (∀ b : Byte, rol8 (wxf b) 1 = b ∧ wxf (rol8 b 1) = b) ∧ Function.Bijective wxf ∧
  (wxf 0x00#8 = 0x00#8 ∧ wxf 0xFF#8 = 0xFF#8 ∧ wxf 0x01#8 = 0x80#8 ∧ wxf 0x80#8 = 0x40#8 ∧ wxf 0x18#8 = 0x0C#8 ∧
    wxf 0x02#8 = 0x01#8) ∧
  wxf (wxf 0x01#8) = 0x40#8 ∧ (∀ b : Byte, wxf^[8] b = b) ∧
  (∀ b : Byte, (ascending.filter fun i => (wxf b).getLsbD i.val).length
    = (ascending.filter fun i => b.getLsbD i.val).length)

/-- R143: the 17 bytes of FrameBytes by position: the base register, then rows 7 to 0, each transformed and padded. -/
def Obligations.FrameBytesByPosition : Prop :=
  ∀ fb : FrameBuffer, (frameBytes fb).length = 17 ∧ (frameBytes fb)[0]? = some 0x00#8 ∧
    ∀ j : Fin 8, (frameBytes fb)[1 + 2 * j.val]? = some (wxf (fb.row (7 - j))) ∧
      (frameBytes fb)[2 + 2 * j.val]? = some 0x00#8

/-- R63, R64: a session's trace for every run of answers: all ACK, a TIMEOUT on OPEN, a TIMEOUT on the k-th WRITE; the CLOSE is
emitted on every path and SESSION ends 0. -/
def Obligations.SessionTrace : Prop :=
  ∀ (s : State) (a : Byte) (bytes : List Byte),
    (s.AllAck (bytes.length + 1) → (transfer a bytes s).1 = .ack ∧
      (transfer a bytes s).2.trace = s.trace ++ ackedSession a bytes) ∧
    (s.TimeoutAt 0 → (transfer a bytes s).1 = .timeout ∧
      (transfer a bytes s).2.trace = s.trace ++ unopenedSession a) ∧
    (∀ (sent : List Byte) (b : Byte) (rest : List Byte), bytes = sent ++ b :: rest → s.TimeoutAt (sent.length + 1) →
      (transfer a bytes s).1 = .timeout ∧ (transfer a bytes s).2.trace = s.trace ++ cutSession a sent b) ∧
    (transfer a bytes s).2.session = false

/-- R144, R145: a fully acknowledged FLUSH: OPEN, the 17 frame bytes, CLOSE; the 18 wire bytes in order; nothing else changes but
ERR, BUSY, the held command and the answers drawn. -/
def Obligations.FlushAcknowledged : Prop :=
  ∀ s : State, s.inited = true → s.AllAck 18 →
    exec .flush s = .next { s with
      trace := s.trace ++ ackedSession Config.addrW (frameBytes s.fb)
      answers := s.answers.drop 18, freeAnswers := s.freeAnswers + (18 - s.answers.length)
      session := false, err := .ok, busy := false, command := none } ∧
    wireBytes (ackedSession Config.addrW (frameBytes s.fb)) =
      [Config.addrW, 0x00#8,
        wxf (s.fb.row 7), 0x00#8, wxf (s.fb.row 6), 0x00#8, wxf (s.fb.row 5), 0x00#8, wxf (s.fb.row 4), 0x00#8,
        wxf (s.fb.row 3), 0x00#8, wxf (s.fb.row 2), 0x00#8, wxf (s.fb.row 1), 0x00#8, wxf (s.fb.row 0), 0x00#8]

/-- R145, R202: a FLUSH whose first TIMEOUT answers OPEN or the k-th WRITE sends nothing after it, closes, and ends with TIMEOUT. -/
def Obligations.FlushTimesOut : Prop :=
  ∀ (s : State) (k : Nat), s.inited = true → k < 18 → s.TimeoutAt k →
    exec .flush s = .next { s with
      trace := s.trace ++ timedOutSession Config.addrW (frameBytes s.fb) k
      answers := s.answers.drop (k + 1), freeAnswers := s.freeAnswers + (k + 1 - s.answers.length)
      session := false, err := .timeout, fault := true, busy := false, command := none }

/-- R146: FLUSH is idempotent on the wire: a second FLUSH of the same buffer with the same answers adds the same events, and
between them any commands that write no frame buffer may stand. -/
def Obligations.FlushIdempotent : Prop :=
  ∀ (s t u v : State) (between : List Instr), s.inited = true → exec .flush s = .next t →
    (∀ i ∈ between, writesFrameBuffer i = false) → execAll between t = some u →
    (∀ k < 18, u.answerAt k = s.answerAt k) → exec .flush u = .next v →
    v.fb = s.fb ∧ ∃ events, t.trace = s.trace ++ events ∧ v.trace = u.trace ++ events

/-- R149, R66: a command adds transport events only if it is INIT, FLUSH, DRAW_ARROW or DRAW_CHECKMARK; FLUSH and the glyphs,
past the gate, add exactly one session to ADDR_W. -/
def Obligations.TransportMultiplexer : Prop :=
  ∀ (s t : State) (i : Instr), exec i s = .next t →
    (drivesTransport i = false → t.trace = s.trace ∧ t.answers = s.answers ∧ t.freeAnswers = s.freeAnswers) ∧
    (drivesTransport i = true → i ≠ .init → s.inited = true →
      ∃ (r : Answer) (writes : List Event), t.trace = s.trace ++ (.opened Config.addrW r :: writes ++ [.closed]) ∧
        ∀ e ∈ writes, ∃ b r', e = .wrote b r')

/-! ### Glyphs (43_glyphs.md) -/

/-- R172, R173: DRAW_ARROW ORs the arrow's row masks into the buffer and flushes the painted buffer, all acknowledged. -/
def Obligations.DrawArrowAcknowledged : Prop :=
  ∀ (s : State) (u : Bool), s.inited = true → s.AllAck 18 →
    ∃ f, exec (.drawArrow u) s = .next { s with
        fb := f, trace := s.trace ++ ackedSession Config.addrW (frameBytes f)
        answers := s.answers.drop 18, freeAnswers := s.freeAnswers + (18 - s.answers.length)
        session := false, err := .ok, busy := false, command := none } ∧
      ∀ y : Fin 8, f.row y = s.fb.row y |||
        (if u then [0x18#8, 0x3C#8, 0x7E#8, 0xFF#8, 0xDB#8, 0x18#8, 0x18#8, 0x18#8]
          else [0x18#8, 0x18#8, 0x18#8, 0xDB#8, 0xFF#8, 0x7E#8, 0x3C#8, 0x18#8]).getD y.val 0x00#8

/-- R176, R177: DRAW_CHECKMARK ORs the checkmark's row masks into the buffer and flushes the painted buffer, all acknowledged. -/
def Obligations.DrawCheckmarkAcknowledged : Prop :=
  ∀ (s : State), s.inited = true → s.AllAck 18 →
    ∃ f, exec .drawCheckmark s = .next { s with
        fb := f, trace := s.trace ++ ackedSession Config.addrW (frameBytes f)
        answers := s.answers.drop 18, freeAnswers := s.freeAnswers + (18 - s.answers.length)
        session := false, err := .ok, busy := false, command := none } ∧
      ∀ y : Fin 8, f.row y = s.fb.row y |||
        [0xC0#8, 0xC0#8, 0xE0#8, 0x60#8, 0x73#8, 0x3F#8, 0x1E#8, 0x0C#8].getD y.val 0x00#8

/-- R174: the two arrows are vertical mirror images of one another from cleared buffers, and the union from one run after the other. -/
def Obligations.ArrowMirrorLaw : Prop :=
  (∀ s : State, s.inited = true → (∀ y : Fin 8, s.fb.row y = 0x00#8) →
    ∃ t u, exec (.drawArrow true) s = .next t ∧ exec (.drawArrow false) s = .next u ∧
      ∀ x y : Fin 8, t.fb.pixel x y = u.fb.pixel x (7 - y)) ∧
  (∀ s : State, s.inited = true → (∀ y : Fin 8, s.fb.row y = 0x00#8) →
    ∃ t, execAll [.drawArrow true, .drawArrow false] s = some t ∧
      ∀ y : Fin 8, t.fb.row y =
        [0x18#8, 0x3C#8, 0x7E#8, 0xFF#8, 0xFF#8, 0x7E#8, 0x3C#8, 0x18#8].getD y.val 0x00#8)

/-- R171: a glyph command never clears a pixel, whatever the state and the answers. -/
def Obligations.GlyphsNeverClear : Prop :=
  ∀ (s : State) (i : Instr), i = .drawCheckmark ∨ (∃ u, i = .drawArrow u) →
    ∃ t, exec i s = .next t ∧ ∀ x y : Fin 8, s.fb.pixel x y = true → t.fb.pixel x y = true

/-- R178: a glyph command paints whole before its session, which sends the painted buffer; a TIMEOUT does not undo the paint; on
NOT_INIT it neither paints nor flushes. -/
def Obligations.GlyphPaintPrecedesFlush : Prop :=
  ∀ (s s' : State) (i : Instr), i = .drawCheckmark ∨ (∃ u, i = .drawArrow u) → s'.inited = true → s'.fb = s.fb →
    ∃ t t', exec i s = .next t ∧ exec i s' = .next t' ∧
      (s.inited = true → (t.err = .ok ∨ t.err = .timeout) ∧ t.fb = t'.fb ∧
        ∃ u events, exec .flush { s with fb := t.fb } = .next u ∧
          u.trace = s.trace ++ events ∧ t.trace = s.trace ++ events ∧ t.err = u.err) ∧
      (s.inited = false → t.fb = s.fb ∧ t.trace = s.trace ∧ t.err = .notInit)

/-! ### Driver init (44_driver_init.md) -/

/-- R190, R191, R193: an INIT whose eight answers are all ACK sends the four command bytes, each in a session of its own, and sets
INITED; from INITED = 0 and from INITED = 1 alike, with the same trace. -/
def Obligations.InitAcknowledged : Prop :=
  ∀ s : State, s.AllAck 8 →
    exec .init s = .next { s with
      inited := true
      trace := s.trace ++
        [.opened Config.addrW .ack, .wrote (Config.initCmd 0) .ack, .closed,
          .opened Config.addrW .ack, .wrote (Config.initCmd 1) .ack, .closed,
          .opened Config.addrW .ack, .wrote (Config.initCmd 2) .ack, .closed,
          .opened Config.addrW .ack, .wrote (Config.initCmd 3) .ack, .closed]
      answers := s.answers.drop 8, freeAnswers := s.freeAnswers + (8 - s.answers.length)
      session := false, err := .ok, busy := false, command := none }

/-- R190, R202: an INIT whose first TIMEOUT is in session k keeps the sessions before it, closes session k, starts none after it,
and leaves INITED as it was. -/
def Obligations.InitTimesOut : Prop :=
  ∀ (s : State) (k : Fin 4) (onWrite : Bool), s.TimeoutAt (2 * k.val + onWrite.toNat) →
    ∃ t, exec .init s = .next t ∧ t.inited = s.inited ∧ t.err = .timeout ∧ t.fault = true ∧ t.fb = s.fb ∧
      t.trace = s.trace ++
        (([Config.initCmd 0, Config.initCmd 1, Config.initCmd 2, Config.initCmd 3].take k.val).flatMap
            (fun b => ackedSession Config.addrW [b]) ++
          (if onWrite then cutSession Config.addrW [] (Config.initCmd k) else unopenedSession Config.addrW))

/-- R192: INITED is set only by an INIT with every answer ACK; an INIT that raises TIMEOUT leaves it as it was, and while it is 0
every other command raises NOT_INIT. -/
def Obligations.InitedOnlyWhenAcknowledged : Prop :=
  ∀ s : State, ∃ t, exec .init s = .next t ∧
    ((t.err = .ok ∧ t.inited = true ∧ s.AllAck 8) ∨
      (t.err = .timeout ∧ t.inited = s.inited ∧ (∃ k < 8, s.TimeoutAt k) ∧
        (s.inited = false → ∀ i : Instr, i ≠ .init → ∃ u, exec i t = .next u ∧ u.err = .notInit ∧ u.inited = false)))

/-! ### Invariants and whole-machine rules -/

/-- Every step keeps the invariant `State.Inv` (R30, R35, R37, R38, R52, R61, R63 to R65), from every state that meets it.
Its clause on the HOST's last command is about the model's record of it (log entry 23). -/
def Obligations.StepKeepsInvariant : Prop := ∀ s t : State, s.Inv → step s = .next t → t.Inv

/-- The state after reset meets both invariants (R40, R230; the reset values of the model's own fields are log entries 2 to 5
and 23). -/
def Obligations.ResetMeetsInvariants : Prop := State.reset.Inv ∧ State.reset.InitEvidence

/-- R25: every step keeps that INITED = 1 only with an acknowledged INIT sequence in the trace. -/
def Obligations.StepKeepsInitEvidence : Prop := ∀ s t : State, s.InitEvidence → step s = .next t → t.InitEvidence

/-- R34, R35, R25: no step clears OVR, FAULT or INITED; OVR is set only by a CMD write while BUSY = 1. -/
def Obligations.StickyFlags : Prop :=
  ∀ s t : State, step s = .next t →
    (s.ovr = true → t.ovr = true) ∧ (s.fault = true → t.fault = true) ∧ (s.inited = true → t.inited = true) ∧
    (s.ovr = false → t.ovr = true →
      s.busy = true ∧ ∃ v rest, s.host = .write 0x0 4 v :: rest ∧ t.fault = true)

/-- R35: FAULT = 0 at the end of a run says that there was no error in it: FAULT was 0 at its start, and if the start meets the
invariant, the end shows ERR = OK and OVR = 0. -/
def Obligations.SafeEndMeansNoError : Prop :=
  ∀ (n : Nat) (s t : State), core.run n s = .next t → t.Safe →
    s.Safe ∧ (s.Inv → t.err = .ok ∧ t.ovr = false)

/-- R23: only the seven listed commands change the frame buffer, and no HOST access does. -/
def Obligations.FrameBufferWriters : Prop :=
  ∀ s t : State, step s = .next t → t.fb ≠ s.fb → s.inited = true ∧
    ∃ i, s.command = some (.command i) ∧ writesFrameBuffer i = true

/-- R23, isolation: a step that runs no GET_PIXEL, FLUSH or glyph shows nothing of the frame buffer: from two states that differ
only in it, the step ends the same way, in states that differ only in it. -/
def Obligations.FrameBufferIsHidden : Prop :=
  ∀ (s : State) (f : FrameBuffer), (∀ i, s.command = some (.command i) → showsFrameBuffer i = false) →
    (∀ t, step s = .next t → ∃ u, step { s with fb := f } = .next u ∧ u = { t with fb := u.fb }) ∧
    (∀ r, step s = .fault r → step { s with fb := f } = .fault r) ∧
    (∀ r, step s ≠ .refused r)

/-- R30: BUSY stays 1 for a finite time: within as many steps as the HOST has accesses to come, and one more, the command in
execution has completed, or the HOST has made an unsupported access (the turns are the model's choice, log entries 3 and 5). -/
def Obligations.BusyFalls : Prop :=
  ∀ s : State, s.Inv → s.busy = true →
    ∃ n, n ≤ s.host.length + 1 ∧
      ((∃ t, core.run n s = .next t ∧ t.busy = false) ∨ (∃ o w, core.run n s = .fault (.badHostAccess o w)))

/-- R234, as the model reads it (log entries 5, 9, 23): when a HOST program has ended, and its result. A CMD write ends none; STATUS read with BUSY = 0 after the last CMD write
does, and changes no part of the result; a command line (a CMD write and WAIT, R89) run alone ends, a CMD write never read back
does not; and an ended run stays ended with the same result, in the same state once the HOST has no access to come (R218). -/
def Obligations.EndedRunIsFinal : Prop :=
  (∀ (s t : State) (v : Word), hostAct (.write 0x0 4 v) s = .next t → ¬ t.Ended) ∧
  (∀ (s : State) (a : HostAction), a = .read 0x4 4 ∨ a = .wait → s.lastCommand = .written → s.NoCommandToCome →
    ∃ t, hostAct a s = .next t ∧ (t.Ended ↔ s.busy = false) ∧ t.result = s.result) ∧
  (∀ (s : State) (v : Word), s.Inv → s.busy = false → s.host = [.write 0x0 4 v, .wait] →
    ∃ t, core.run 3 s = .next t ∧ t.Ended) ∧
  (∀ (n : Nat) (s t : State) (v : Word), s.host = [.write 0x0 4 v] → core.run n s = .next t → ¬ t.Ended) ∧
  (∀ (n : Nat) (s t : State), s.Inv → s.Ended → core.run n s = .next t → t.Ended ∧ t.result = s.result) ∧
  (∀ (n : Nat) (s : State), s.Inv → s.Ended → s.host = [] → core.run n s = .next s) ∧
  (∀ s t : State, s.result = t.result ↔
    (∀ y : Fin 8, s.fb.row y = t.fb.row y) ∧ s.inited = t.inited ∧ s.status = t.status ∧ s.trace = t.trace)
end

