-- ==== Sys2Proof/Laws/Bits.lean ====
section
/-! SUPPORT. Laws of the byte operators (each over all 256 bytes), of coordinates, and of the frame buffer's rows and
pixels. -/

namespace Sys2Proof.Machine

theorem pixelMask_bit (x c : Fin 8) : (pixelMask x).getLsbD c.val = decide (c = x) := by
  revert x c; decide

/-- R131 on a row: bit c of the rotated row is bit c + 7 (mod 8) of the row. -/
theorem rol8_bit (b : Byte) (c : Fin 8) : (rol8 b 1).getLsbD c.val = b.getLsbD (c + 7).val := by
  revert b c; decide

/-- R133 on a row: bit c of the row rotated right is bit c + 1 (mod 8) of the row. -/
theorem ror8_bit (b : Byte) (c : Fin 8) : (ror8 b 1).getLsbD c.val = b.getLsbD (c + 1).val := by
  revert b c; decide

theorem rol8_ror8 (b : Byte) : rol8 (ror8 b 1) 1 = b := by
  revert b; decide

theorem ror8_rol8 (b : Byte) : ror8 (rol8 b 1) 1 = b := by
  revert b; decide

/-- Rows are equal when their eight bits are. -/
theorem byte_ext {a b : Byte} (h : ∀ c : Fin 8, a.getLsbD c.val = b.getLsbD c.val) : a = b :=
  BitVec.eq_of_getLsbD_eq fun i hi => h ⟨i, hi⟩

theorem coordinates_some {x y : Byte} {c r : Fin 8} (h : coordinates x y = some (c, r)) :
    c.val = x.toNat ∧ r.val = y.toNat := by
  unfold coordinates at h
  split at h
  · cases h; exact ⟨rfl, rfl⟩
  · cases h

/-- A pair in range, as the coordinates it names. -/
theorem coordinates_inRange {x y : Byte} {c r : Fin 8} (hx : c.val = x.toNat) (hy : r.val = y.toNat) :
    coordinates x y = some (c, r) := by
  unfold coordinates
  have hc := c.isLt
  have hr := r.isLt
  rw [dif_pos ⟨by omega, by omega⟩]
  congr 2 <;> exact Fin.ext (by simp_all)

theorem coordinates_outOfRange {x y : Byte} (h : 8 ≤ x.toNat ∨ 8 ≤ y.toNat) : coordinates x y = none := by
  unfold coordinates
  rw [dif_neg (by omega)]

theorem coordinates_none {x y : Byte} (h : coordinates x y = none) : 8 ≤ x.toNat ∨ 8 ≤ y.toNat := by
  unfold coordinates at h
  split at h
  · cases h
  · omega

@[simp] theorem row_ofRows (f : Fin 8 → Byte) (y : Fin 8) : (FrameBuffer.ofRows f).row y = f y := by
  match y with
  | 0 => rfl
  | 1 => rfl
  | 2 => rfl
  | 3 => rfl
  | 4 => rfl
  | 5 => rfl
  | 6 => rfl
  | 7 => rfl

/-- Frame buffers are equal when their rows are. -/
theorem frameBuffer_ext {a b : FrameBuffer} (h : ∀ y, a.row y = b.row y) : a = b := by
  cases a; cases b
  have h0 := h 0; have h1 := h 1; have h2 := h 2; have h3 := h 3
  have h4 := h 4; have h5 := h 5; have h6 := h 6; have h7 := h 7
  simp only [FrameBuffer.row] at h0 h1 h2 h3 h4 h5 h6 h7
  simp [*]

/-- Frame buffers are equal when their pixels are (R24). -/
theorem pixel_ext {a b : FrameBuffer} (h : ∀ x y, a.pixel x y = b.pixel x y) : a = b :=
  frameBuffer_ext fun y => byte_ext fun x => h x y

theorem row_setRow (fb : FrameBuffer) (y : Fin 8) (v : Byte) (z : Fin 8) :
    (fb.setRow y v).row z = if z = y then v else fb.row z := by
  simp [FrameBuffer.setRow]

/-- R100, R101: the pixels after SET_PIXEL. -/
theorem pixel_setPixel (fb : FrameBuffer) (x y : Byte) (c r : Fin 8) :
    (fb.setPixel x y).pixel c r = if c.val = x.toNat ∧ r.val = y.toNat then true else fb.pixel c r := by
  unfold FrameBuffer.setPixel
  split
  · next x' y' h =>
    obtain ⟨hx, hy⟩ := coordinates_some h
    rw [← hx, ← hy, FrameBuffer.pixel, row_setRow]
    by_cases hr : r = y'
    · subst hr
      rw [if_pos rfl, BitVec.getLsbD_or, pixelMask_bit]
      by_cases hc : c = x'
      · simp [hc]
      · have := Fin.val_ne_of_ne hc
        simp [hc, this, FrameBuffer.pixel]
    · have := Fin.val_ne_of_ne hr
      simp [hr, this, FrameBuffer.pixel]
  · next h =>
    have := coordinates_none h
    rw [if_neg (by omega)]

/-- R104, R105: the pixels after CLEAR_PIXEL. -/
theorem pixel_clearPixel (fb : FrameBuffer) (x y : Byte) (c r : Fin 8) :
    (fb.clearPixel x y).pixel c r = if c.val = x.toNat ∧ r.val = y.toNat then false else fb.pixel c r := by
  unfold FrameBuffer.clearPixel
  split
  · next x' y' h =>
    obtain ⟨hx, hy⟩ := coordinates_some h
    rw [← hx, ← hy, FrameBuffer.pixel, row_setRow]
    by_cases hr : r = y'
    · subst hr
      rw [if_pos rfl, BitVec.getLsbD_and, BitVec.getLsbD_not, pixelMask_bit]
      by_cases hc : c = x'
      · simp [hc]
      · have := Fin.val_ne_of_ne hc
        simp [hc, this, FrameBuffer.pixel]
    · have := Fin.val_ne_of_ne hr
      simp [hr, this, FrameBuffer.pixel]
  · next h =>
    have := coordinates_none h
    rw [if_neg (by omega)]

/-- The row a glyph's predicate paints: bit x is lit x (R170). -/
def rowMask (lit : Fin 8 → Bool) : Byte :=
  ascending.foldl (fun row x => if lit x then row ||| pixelMask x else row) 0x00#8

/-- R170: Paint ORs the glyph's row mask into each row. -/
theorem row_paint (fb : FrameBuffer) (lit : Fin 8 → Fin 8 → Bool) (y : Fin 8) :
    (fb.paint lit).row y = fb.row y ||| rowMask fun x => lit x y := by
  have step : ∀ (xs : List (Fin 8)) (a b : Byte),
      xs.foldl (fun row x => if lit x y then row ||| pixelMask x else row) (a ||| b)
        = a ||| xs.foldl (fun row x => if lit x y then row ||| pixelMask x else row) b := by
    intro xs
    induction xs with
    | nil => intro a b; rfl
    | cons x xs ih =>
      intro a b
      simp only [List.foldl_cons]
      split
      · rw [BitVec.or_assoc, ih]
      · exact ih a b
  rw [FrameBuffer.paint, row_ofRows, rowMask, ← step]
  simp

/-- R171: a painted pixel or one lit before is lit, and no other. -/
theorem pixel_paint (fb : FrameBuffer) (lit : Fin 8 → Fin 8 → Bool) (x y : Fin 8) :
    (fb.paint lit).pixel x y = (fb.pixel x y || lit x y) := by
  have h : ∀ (l : Fin 8 → Bool) (x : Fin 8), (rowMask l).getLsbD x.val = l x := by
    intro l x
    have bit : ∀ (xs : List (Fin 8)) (b : Byte),
        (xs.foldl (fun row x => if l x then row ||| pixelMask x else row) b).getLsbD x.val
          = (b.getLsbD x.val || (decide (x ∈ xs) && l x)) := by
      intro xs
      induction xs with
      | nil => intro b; simp
      | cons z xs ih =>
        intro b
        rw [List.foldl_cons, ih]
        by_cases hz : x = z
        · subst hz
          cases hl : l x
          · simp only [Bool.false_eq_true, if_false, Bool.and_false]
          · simp only [if_true, BitVec.getLsbD_or, pixelMask_bit]; simp
        · cases hl : l z
          · simp [hz]
          · simp only [if_true, BitVec.getLsbD_or, pixelMask_bit, hz]; simp [hz]
    have mem : ∀ z : Fin 8, z ∈ ascending := by decide
    rw [rowMask, bit]
    simp [mem]
  rw [FrameBuffer.pixel, row_paint, BitVec.getLsbD_or, h]
  rfl

end Sys2Proof.Machine
end

