-- ==== Sys2Proof/Laws/State.lean ====
section
/-! SUPPORT. What each update of the state does to each field of it, so that no proof unfolds a record update. -/

namespace Sys2Proof.Machine

variable (s : State)

@[simp] theorem accept_fb (v : Word) : (accept v s).fb = s.fb := rfl
@[simp] theorem accept_inited (v : Word) : (accept v s).inited = s.inited := rfl
@[simp] theorem accept_busy (v : Word) : (accept v s).busy = true := rfl
@[simp] theorem accept_pixel (v : Word) : (accept v s).pixel = s.pixel := rfl
@[simp] theorem accept_err (v : Word) : (accept v s).err = s.err := rfl
@[simp] theorem accept_ovr (v : Word) : (accept v s).ovr = s.ovr := rfl
@[simp] theorem accept_fault (v : Word) : (accept v s).fault = s.fault := rfl
@[simp] theorem accept_session (v : Word) : (accept v s).session = s.session := rfl
@[simp] theorem accept_command (v : Word) : (accept v s).command = some (decode v) := rfl
@[simp] theorem accept_trace (v : Word) : (accept v s).trace = s.trace := rfl
@[simp] theorem accept_host (v : Word) : (accept v s).host = s.host := rfl
@[simp] theorem accept_hostReads (v : Word) : (accept v s).hostReads = s.hostReads := rfl
@[simp] theorem accept_lastCommand (v : Word) : (accept v s).lastCommand = .written := rfl
@[simp] theorem accept_answers (v : Word) : (accept v s).answers = s.answers := rfl
@[simp] theorem accept_freeAnswers (v : Word) : (accept v s).freeAnswers = s.freeAnswers := rfl
@[simp] theorem accept_turns (v : Word) : (accept v s).turns = s.turns := rfl
@[simp] theorem accept_freeTurns (v : Word) : (accept v s).freeTurns = s.freeTurns := rfl

@[simp] theorem overrun_fb : (overrun s).fb = s.fb := rfl
@[simp] theorem overrun_inited : (overrun s).inited = s.inited := rfl
@[simp] theorem overrun_busy : (overrun s).busy = s.busy := rfl
@[simp] theorem overrun_pixel : (overrun s).pixel = s.pixel := rfl
@[simp] theorem overrun_err : (overrun s).err = s.err := rfl
@[simp] theorem overrun_ovr : (overrun s).ovr = true := rfl
@[simp] theorem overrun_fault : (overrun s).fault = true := rfl
@[simp] theorem overrun_session : (overrun s).session = s.session := rfl
@[simp] theorem overrun_command : (overrun s).command = s.command := rfl
@[simp] theorem overrun_trace : (overrun s).trace = s.trace := rfl
@[simp] theorem overrun_host : (overrun s).host = s.host := rfl
@[simp] theorem overrun_hostReads : (overrun s).hostReads = s.hostReads := rfl
@[simp] theorem overrun_lastCommand : (overrun s).lastCommand = .written := rfl
@[simp] theorem overrun_answers : (overrun s).answers = s.answers := rfl
@[simp] theorem overrun_freeAnswers : (overrun s).freeAnswers = s.freeAnswers := rfl
@[simp] theorem overrun_turns : (overrun s).turns = s.turns := rfl
@[simp] theorem overrun_freeTurns : (overrun s).freeTurns = s.freeTurns := rfl

@[simp] theorem complete_fb (c : Code) : (complete c s).fb = s.fb := rfl
@[simp] theorem complete_inited (c : Code) : (complete c s).inited = s.inited := rfl
@[simp] theorem complete_busy (c : Code) : (complete c s).busy = false := rfl
@[simp] theorem complete_pixel (c : Code) : (complete c s).pixel = s.pixel := rfl
@[simp] theorem complete_err (c : Code) : (complete c s).err = c := rfl
@[simp] theorem complete_ovr (c : Code) : (complete c s).ovr = s.ovr := rfl
@[simp] theorem complete_fault (c : Code) : (complete c s).fault = if c = .ok then s.fault else true := rfl
@[simp] theorem complete_session (c : Code) : (complete c s).session = s.session := rfl
@[simp] theorem complete_command (c : Code) : (complete c s).command = none := rfl
@[simp] theorem complete_trace (c : Code) : (complete c s).trace = s.trace := rfl
@[simp] theorem complete_host (c : Code) : (complete c s).host = s.host := rfl
@[simp] theorem complete_hostReads (c : Code) : (complete c s).hostReads = s.hostReads := rfl
@[simp] theorem complete_lastCommand (c : Code) : (complete c s).lastCommand = s.lastCommand := rfl
@[simp] theorem complete_answers (c : Code) : (complete c s).answers = s.answers := rfl
@[simp] theorem complete_freeAnswers (c : Code) : (complete c s).freeAnswers = s.freeAnswers := rfl
@[simp] theorem complete_turns (c : Code) : (complete c s).turns = s.turns := rfl
@[simp] theorem complete_freeTurns (c : Code) : (complete c s).freeTurns = s.freeTurns := rfl

@[simp] theorem emit_fb (e : Event) : (emit e s).fb = s.fb := rfl
@[simp] theorem emit_inited (e : Event) : (emit e s).inited = s.inited := rfl
@[simp] theorem emit_busy (e : Event) : (emit e s).busy = s.busy := rfl
@[simp] theorem emit_pixel (e : Event) : (emit e s).pixel = s.pixel := rfl
@[simp] theorem emit_err (e : Event) : (emit e s).err = s.err := rfl
@[simp] theorem emit_ovr (e : Event) : (emit e s).ovr = s.ovr := rfl
@[simp] theorem emit_fault (e : Event) : (emit e s).fault = s.fault := rfl
@[simp] theorem emit_session (e : Event) : (emit e s).session = s.session := rfl
@[simp] theorem emit_command (e : Event) : (emit e s).command = s.command := rfl
@[simp] theorem emit_trace (e : Event) : (emit e s).trace = s.trace ++ [e] := rfl
@[simp] theorem emit_host (e : Event) : (emit e s).host = s.host := rfl
@[simp] theorem emit_hostReads (e : Event) : (emit e s).hostReads = s.hostReads := rfl
@[simp] theorem emit_lastCommand (e : Event) : (emit e s).lastCommand = s.lastCommand := rfl
@[simp] theorem emit_answers (e : Event) : (emit e s).answers = s.answers := rfl
@[simp] theorem emit_freeAnswers (e : Event) : (emit e s).freeAnswers = s.freeAnswers := rfl
@[simp] theorem emit_turns (e : Event) : (emit e s).turns = s.turns := rfl
@[simp] theorem emit_freeTurns (e : Event) : (emit e s).freeTurns = s.freeTurns := rfl

@[simp] theorem tClose_fb : (tClose s).fb = s.fb := rfl
@[simp] theorem tClose_inited : (tClose s).inited = s.inited := rfl
@[simp] theorem tClose_busy : (tClose s).busy = s.busy := rfl
@[simp] theorem tClose_pixel : (tClose s).pixel = s.pixel := rfl
@[simp] theorem tClose_err : (tClose s).err = s.err := rfl
@[simp] theorem tClose_ovr : (tClose s).ovr = s.ovr := rfl
@[simp] theorem tClose_fault : (tClose s).fault = s.fault := rfl
@[simp] theorem tClose_session : (tClose s).session = s.session := rfl
@[simp] theorem tClose_command : (tClose s).command = s.command := rfl
@[simp] theorem tClose_trace : (tClose s).trace = s.trace ++ [.closed] := rfl
@[simp] theorem tClose_host : (tClose s).host = s.host := rfl
@[simp] theorem tClose_hostReads : (tClose s).hostReads = s.hostReads := rfl
@[simp] theorem tClose_lastCommand : (tClose s).lastCommand = s.lastCommand := rfl
@[simp] theorem tClose_answers : (tClose s).answers = s.answers := rfl
@[simp] theorem tClose_freeAnswers : (tClose s).freeAnswers = s.freeAnswers := rfl
@[simp] theorem tClose_turns : (tClose s).turns = s.turns := rfl
@[simp] theorem tClose_freeTurns : (tClose s).freeTurns = s.freeTurns := rfl

@[simp] theorem setSession_fb (v : Bool) : (setSession v s).fb = s.fb := rfl
@[simp] theorem setSession_inited (v : Bool) : (setSession v s).inited = s.inited := rfl
@[simp] theorem setSession_busy (v : Bool) : (setSession v s).busy = s.busy := rfl
@[simp] theorem setSession_pixel (v : Bool) : (setSession v s).pixel = s.pixel := rfl
@[simp] theorem setSession_err (v : Bool) : (setSession v s).err = s.err := rfl
@[simp] theorem setSession_ovr (v : Bool) : (setSession v s).ovr = s.ovr := rfl
@[simp] theorem setSession_fault (v : Bool) : (setSession v s).fault = s.fault := rfl
@[simp] theorem setSession_session (v : Bool) : (setSession v s).session = v := rfl
@[simp] theorem setSession_command (v : Bool) : (setSession v s).command = s.command := rfl
@[simp] theorem setSession_trace (v : Bool) : (setSession v s).trace = s.trace := rfl
@[simp] theorem setSession_host (v : Bool) : (setSession v s).host = s.host := rfl
@[simp] theorem setSession_hostReads (v : Bool) : (setSession v s).hostReads = s.hostReads := rfl
@[simp] theorem setSession_lastCommand (v : Bool) : (setSession v s).lastCommand = s.lastCommand := rfl
@[simp] theorem setSession_answers (v : Bool) : (setSession v s).answers = s.answers := rfl
@[simp] theorem setSession_freeAnswers (v : Bool) : (setSession v s).freeAnswers = s.freeAnswers := rfl
@[simp] theorem setSession_turns (v : Bool) : (setSession v s).turns = s.turns := rfl
@[simp] theorem setSession_freeTurns (v : Bool) : (setSession v s).freeTurns = s.freeTurns := rfl

@[simp] theorem deliver_fb (v : Word) : (deliver v s).fb = s.fb := rfl
@[simp] theorem deliver_inited (v : Word) : (deliver v s).inited = s.inited := rfl
@[simp] theorem deliver_busy (v : Word) : (deliver v s).busy = s.busy := rfl
@[simp] theorem deliver_pixel (v : Word) : (deliver v s).pixel = s.pixel := rfl
@[simp] theorem deliver_err (v : Word) : (deliver v s).err = s.err := rfl
@[simp] theorem deliver_ovr (v : Word) : (deliver v s).ovr = s.ovr := rfl
@[simp] theorem deliver_fault (v : Word) : (deliver v s).fault = s.fault := rfl
@[simp] theorem deliver_session (v : Word) : (deliver v s).session = s.session := rfl
@[simp] theorem deliver_command (v : Word) : (deliver v s).command = s.command := rfl
@[simp] theorem deliver_trace (v : Word) : (deliver v s).trace = s.trace := rfl
@[simp] theorem deliver_host (v : Word) : (deliver v s).host = s.host := rfl
@[simp] theorem deliver_hostReads (v : Word) : (deliver v s).hostReads = s.hostReads ++ [v] := rfl
@[simp] theorem deliver_lastCommand (v : Word) : (deliver v s).lastCommand = s.lastCommand := rfl
@[simp] theorem deliver_answers (v : Word) : (deliver v s).answers = s.answers := rfl
@[simp] theorem deliver_freeAnswers (v : Word) : (deliver v s).freeAnswers = s.freeAnswers := rfl
@[simp] theorem deliver_turns (v : Word) : (deliver v s).turns = s.turns := rfl
@[simp] theorem deliver_freeTurns (v : Word) : (deliver v s).freeTurns = s.freeTurns := rfl

@[simp] theorem readStatus_fb : (readStatus s).fb = s.fb := rfl
@[simp] theorem readStatus_inited : (readStatus s).inited = s.inited := rfl
@[simp] theorem readStatus_busy : (readStatus s).busy = s.busy := rfl
@[simp] theorem readStatus_pixel : (readStatus s).pixel = s.pixel := rfl
@[simp] theorem readStatus_err : (readStatus s).err = s.err := rfl
@[simp] theorem readStatus_ovr : (readStatus s).ovr = s.ovr := rfl
@[simp] theorem readStatus_fault : (readStatus s).fault = s.fault := rfl
@[simp] theorem readStatus_session : (readStatus s).session = s.session := rfl
@[simp] theorem readStatus_command : (readStatus s).command = s.command := rfl
@[simp] theorem readStatus_trace : (readStatus s).trace = s.trace := rfl
@[simp] theorem readStatus_host : (readStatus s).host = s.host := rfl
@[simp] theorem readStatus_hostReads : (readStatus s).hostReads = s.hostReads ++ [s.status] := rfl
@[simp] theorem readStatus_lastCommand : (readStatus s).lastCommand = afterStatusRead s.busy s.lastCommand := rfl
@[simp] theorem readStatus_answers : (readStatus s).answers = s.answers := rfl
@[simp] theorem readStatus_freeAnswers : (readStatus s).freeAnswers = s.freeAnswers := rfl
@[simp] theorem readStatus_turns : (readStatus s).turns = s.turns := rfl
@[simp] theorem readStatus_freeTurns : (readStatus s).freeTurns = s.freeTurns := rfl
@[simp] theorem readStatus_status : (readStatus s).status = s.status := rfl

@[simp] theorem dropAnswer_fb : (dropAnswer s).fb = s.fb := by unfold dropAnswer; split <;> rfl
@[simp] theorem dropAnswer_inited : (dropAnswer s).inited = s.inited := by unfold dropAnswer; split <;> rfl
@[simp] theorem dropAnswer_busy : (dropAnswer s).busy = s.busy := by unfold dropAnswer; split <;> rfl
@[simp] theorem dropAnswer_pixel : (dropAnswer s).pixel = s.pixel := by unfold dropAnswer; split <;> rfl
@[simp] theorem dropAnswer_err : (dropAnswer s).err = s.err := by unfold dropAnswer; split <;> rfl
@[simp] theorem dropAnswer_ovr : (dropAnswer s).ovr = s.ovr := by unfold dropAnswer; split <;> rfl
@[simp] theorem dropAnswer_fault : (dropAnswer s).fault = s.fault := by unfold dropAnswer; split <;> rfl
@[simp] theorem dropAnswer_session : (dropAnswer s).session = s.session := by unfold dropAnswer; split <;> rfl
@[simp] theorem dropAnswer_command : (dropAnswer s).command = s.command := by unfold dropAnswer; split <;> rfl
@[simp] theorem dropAnswer_trace : (dropAnswer s).trace = s.trace := by unfold dropAnswer; split <;> rfl
@[simp] theorem dropAnswer_host : (dropAnswer s).host = s.host := by unfold dropAnswer; split <;> rfl
@[simp] theorem dropAnswer_hostReads : (dropAnswer s).hostReads = s.hostReads := by unfold dropAnswer; split <;> rfl
@[simp] theorem dropAnswer_lastCommand : (dropAnswer s).lastCommand = s.lastCommand := by unfold dropAnswer; split <;> rfl
@[simp] theorem dropAnswer_turns : (dropAnswer s).turns = s.turns := by unfold dropAnswer; split <;> rfl
@[simp] theorem dropAnswer_freeTurns : (dropAnswer s).freeTurns = s.freeTurns := by unfold dropAnswer; split <;> rfl

@[simp] theorem dropTurn_fb : (dropTurn s).fb = s.fb := by unfold dropTurn; split <;> rfl
@[simp] theorem dropTurn_inited : (dropTurn s).inited = s.inited := by unfold dropTurn; split <;> rfl
@[simp] theorem dropTurn_busy : (dropTurn s).busy = s.busy := by unfold dropTurn; split <;> rfl
@[simp] theorem dropTurn_pixel : (dropTurn s).pixel = s.pixel := by unfold dropTurn; split <;> rfl
@[simp] theorem dropTurn_err : (dropTurn s).err = s.err := by unfold dropTurn; split <;> rfl
@[simp] theorem dropTurn_ovr : (dropTurn s).ovr = s.ovr := by unfold dropTurn; split <;> rfl
@[simp] theorem dropTurn_fault : (dropTurn s).fault = s.fault := by unfold dropTurn; split <;> rfl
@[simp] theorem dropTurn_session : (dropTurn s).session = s.session := by unfold dropTurn; split <;> rfl
@[simp] theorem dropTurn_command : (dropTurn s).command = s.command := by unfold dropTurn; split <;> rfl
@[simp] theorem dropTurn_trace : (dropTurn s).trace = s.trace := by unfold dropTurn; split <;> rfl
@[simp] theorem dropTurn_host : (dropTurn s).host = s.host := by unfold dropTurn; split <;> rfl
@[simp] theorem dropTurn_hostReads : (dropTurn s).hostReads = s.hostReads := by unfold dropTurn; split <;> rfl
@[simp] theorem dropTurn_lastCommand : (dropTurn s).lastCommand = s.lastCommand := by unfold dropTurn; split <;> rfl
@[simp] theorem dropTurn_answers : (dropTurn s).answers = s.answers := by unfold dropTurn; split <;> rfl
@[simp] theorem dropTurn_freeAnswers : (dropTurn s).freeAnswers = s.freeAnswers := by unfold dropTurn; split <;> rfl

@[simp] theorem dropAnswer_answers : (dropAnswer s).answers = s.answers.tail := by
  unfold dropAnswer; split <;> simp_all

theorem dropAnswer_freeAnswers :
    (dropAnswer s).freeAnswers = if s.answers = [] then s.freeAnswers + 1 else s.freeAnswers := by
  unfold dropAnswer; split <;> simp_all

@[simp] theorem dropTurn_turns : (dropTurn s).turns = s.turns.tail := by
  unfold dropTurn; split <;> simp_all

theorem dropTurn_freeTurns :
    (dropTurn s).freeTurns = if s.turns = [] then s.freeTurns + 1 else s.freeTurns := by
  unfold dropTurn; split <;> simp_all

@[simp] theorem afterStatusRead_written : afterStatusRead false .written = .readBack := rfl
@[simp] theorem afterStatusRead_notWritten (b : Bool) : afterStatusRead b .notWritten = .notWritten := rfl
@[simp] theorem afterStatusRead_readBack (b : Bool) : afterStatusRead b .readBack = .readBack := rfl
@[simp] theorem afterStatusRead_busy (l : LastCommand) : afterStatusRead true l = l := by cases l <;> rfl

/-- A STATUS read leaves the last command read back only with BUSY = 0, or if it was so before. -/
theorem afterStatusRead_eq_readBack {b : Bool} {l : LastCommand} (h : afterStatusRead b l = .readBack) :
    b = false ∨ l = .readBack := by
  cases b <;> cases l <;> simp_all

end Sys2Proof.Machine
end

