-- ==== Sys2Proof/Laws/Transport.lean ====
section
/-! SUPPORT. What a transport session does, said once: its answer, how many answers it draws and the events it adds are
functions of the TRANSPORT's answers to come, and nothing else of the state changes but SESSION (R63). -/

namespace Sys2Proof.Machine

/-- The state after the transport has drawn `n` answers, added `events` to the trace and left SESSION at `v`. -/
def State.ran (s : State) (n : Nat) (events : List Event) (v : Bool) : State :=
  { s with
    answers := s.answers.drop n
    freeAnswers := s.freeAnswers + (n - s.answers.length)
    trace := s.trace ++ events
    session := v }

/-- What a run of transport events amounts to: the answer it ends with, how many answers it draws, the events it adds. -/
structure TransportRun where
  answer : Answer
  draws : Nat
  events : List Event

/-- A run of WRITEs under the answers `f` (R63). -/
def writeRun (f : Nat → Answer) : List Byte → TransportRun
  | [] => ⟨.ack, 0, []⟩
  | b :: rest =>
    match f 0 with
    | .ack =>
      let r := writeRun (fun k => f (k + 1)) rest
      ⟨r.answer, r.draws + 1, .wrote b .ack :: r.events⟩
    | .timeout => ⟨.timeout, 1, [.wrote b .timeout]⟩

/-- A session under the answers `f` (R63). -/
def sessionRun (f : Nat → Answer) (a : Byte) (bytes : List Byte) : TransportRun :=
  match f 0 with
  | .ack =>
    let r := writeRun (fun k => f (k + 1)) bytes
    ⟨r.answer, r.draws + 1, .opened a .ack :: r.events ++ [.closed]⟩
  | .timeout => ⟨.timeout, 1, unopenedSession a⟩

/-- Sessions of one byte each under the answers `f` (R190). -/
def sessionsRun (f : Nat → Answer) (a : Byte) : List Byte → TransportRun
  | [] => ⟨.ack, 0, []⟩
  | b :: rest =>
    let r := sessionRun f a [b]
    match r.answer with
    | .ack =>
      let q := sessionsRun (fun k => f (r.draws + k)) a rest
      ⟨q.answer, r.draws + q.draws, r.events ++ q.events⟩
    | .timeout => r

theorem nextAnswer_eq (s : State) : nextAnswer s = s.answerAt 0 := by
  unfold nextAnswer State.answerAt
  cases s.answers <;> simp

@[simp] theorem ran_nothing (s : State) : s.ran 0 [] s.session = s := by
  simp [State.ran]

theorem ran_ran (s : State) (m n : Nat) (d e : List Event) (u v : Bool) :
    (s.ran m d u).ran n e v = s.ran (m + n) (d ++ e) v := by
  simp only [State.ran, List.drop_drop, List.length_drop, List.append_assoc, State.mk.injEq, true_and, and_true]
  omega

@[simp] theorem ran_session (s : State) (n : Nat) (e : List Event) (v : Bool) : (s.ran n e v).session = v := rfl

/-- Answer k of the state after n draws is answer n + k. -/
theorem answerAt_ran (s : State) (n : Nat) (e : List Event) (v : Bool) :
    (s.ran n e v).answerAt = fun k => s.answerAt (n + k) := by
  funext k
  unfold State.answerAt State.ran
  simp only [List.getElem?_drop, List.length_drop]
  cases h : s.answers[n + k]? with
  | some a => rfl
  | none =>
    have := List.getElem?_eq_none_iff.mp h
    simp only
    congr 1
    omega

/-- The answers to come depend on the two answer fields alone. -/
theorem answerAt_congr {s t : State} (h : t.answers = s.answers) (g : t.freeAnswers = s.freeAnswers) :
    t.answerAt = s.answerAt := by
  funext k
  simp only [State.answerAt, h, g]

theorem emit_dropAnswer (e : Event) (s : State) : emit e (dropAnswer s) = s.ran 1 [e] s.session := by
  unfold dropAnswer State.ran emit
  cases h : s.answers <;> simp

theorem tOpen_eq (a : Byte) (s : State) :
    tOpen a s = (s.answerAt 0, s.ran 1 [.opened a (s.answerAt 0)] s.session) := by
  rw [tOpen, nextAnswer_eq, emit_dropAnswer]

theorem tWrite_eq (b : Byte) (s : State) :
    tWrite b s = (s.answerAt 0, s.ran 1 [.wrote b (s.answerAt 0)] s.session) := by
  rw [tWrite, nextAnswer_eq, emit_dropAnswer]

theorem tClose_eq (s : State) : tClose s = s.ran 0 [.closed] s.session := by
  simp [tClose, emit, State.ran]

theorem setSession_eq (v : Bool) (s : State) : setSession v s = s.ran 0 [] v := by
  simp [setSession, State.ran]

theorem writeBytes_spec (bytes : List Byte) : ∀ s : State,
    writeBytes bytes s = ((writeRun s.answerAt bytes).answer,
      s.ran (writeRun s.answerAt bytes).draws (writeRun s.answerAt bytes).events s.session) := by
  induction bytes with
  | nil => intro s; simp [writeBytes, writeRun]
  | cons b rest ih =>
    intro s
    rw [writeBytes, writeRun, tWrite_eq]
    cases h : s.answerAt 0 with
    | timeout => rfl
    | ack =>
      simp only [ih, answerAt_ran, ran_ran, ran_session, List.singleton_append, Nat.add_comm 1]

/-- R63: everything a session does. -/
theorem transfer_spec (a : Byte) (bytes : List Byte) (s : State) :
    transfer a bytes s = ((sessionRun s.answerAt a bytes).answer,
      s.ran (sessionRun s.answerAt a bytes).draws (sessionRun s.answerAt a bytes).events false) := by
  rw [transfer, openAndWrite, sessionRun, setSession_eq, tOpen_eq]
  simp only [answerAt_ran, Nat.zero_add]
  cases h : s.answerAt 0 with
  | timeout =>
    simp only [tClose_eq, setSession_eq, ran_ran, ran_session]
    rfl
  | ack =>
    simp only [writeBytes_spec, tClose_eq, setSession_eq, answerAt_ran, ran_ran, ran_session, Nat.add_comm 1,
      Nat.zero_add, Nat.add_zero, List.nil_append, List.append_nil, List.singleton_append]

/-- R190: everything a row of one-byte sessions does, if there is at least one. -/
theorem transferEach_spec (a : Byte) (bytes : List Byte) : ∀ (b : Byte) (s : State),
    transferEach a (b :: bytes) s = ((sessionsRun s.answerAt a (b :: bytes)).answer,
      s.ran (sessionsRun s.answerAt a (b :: bytes)).draws (sessionsRun s.answerAt a (b :: bytes)).events false) := by
  induction bytes with
  | nil =>
    intro b s
    rw [transferEach, sessionsRun, transfer_spec]
    generalize sessionRun s.answerAt a [b] = r
    cases h : r.answer <;> simp [transferEach, sessionsRun, h]
  | cons c rest ih =>
    intro b s
    rw [transferEach, sessionsRun, transfer_spec]
    generalize sessionRun s.answerAt a [b] = r
    cases h : r.answer with
    | timeout => simp [h]
    | ack => simp only [ih, answerAt_ran, ran_ran]

/-- All WRITEs acknowledged. -/
theorem writeRun_acked (bytes : List Byte) : ∀ f : Nat → Answer, (∀ k < bytes.length, f k = .ack) →
    writeRun f bytes = ⟨.ack, bytes.length, bytes.map fun b => .wrote b .ack⟩ := by
  induction bytes with
  | nil => intro f _; rfl
  | cons b rest ih =>
    intro f h
    rw [writeRun, h 0 (by simp), ih _ fun k hk => h (k + 1) (by simpa using hk)]
    rfl

/-- The first TIMEOUT answers the WRITE of `b`. -/
theorem writeRun_cut (sent : List Byte) (b : Byte) (rest : List Byte) : ∀ f : Nat → Answer,
    (∀ k < sent.length, f k = .ack) → f sent.length = .timeout →
    writeRun f (sent ++ b :: rest)
      = ⟨.timeout, sent.length + 1, (sent.map fun b => .wrote b .ack) ++ [.wrote b .timeout]⟩ := by
  induction sent with
  | nil => intro f _ h; simp only [List.length_nil] at h; simp [writeRun, h]
  | cons c sent ih =>
    intro f h ht
    rw [List.cons_append, writeRun, h 0 (by simp),
      ih _ (fun k hk => h (k + 1) (by simpa using hk)) (by simpa using ht)]
    rfl

/-- A session with every answer ACK. -/
theorem sessionRun_acked {f : Nat → Answer} (a : Byte) (bytes : List Byte) (h : ∀ k < bytes.length + 1, f k = .ack) :
    sessionRun f a bytes = ⟨.ack, bytes.length + 1, ackedSession a bytes⟩ := by
  rw [sessionRun, h 0 (by omega), writeRun_acked bytes _ fun k hk => h (k + 1) (by omega)]
  rfl

/-- A session whose OPEN is answered TIMEOUT. -/
theorem sessionRun_unopened {f : Nat → Answer} (a : Byte) (bytes : List Byte) (h : f 0 = .timeout) :
    sessionRun f a bytes = ⟨.timeout, 1, unopenedSession a⟩ := by
  rw [sessionRun, h]

/-- A session cut at the WRITE of `b`. -/
theorem sessionRun_cut {f : Nat → Answer} (a : Byte) (sent : List Byte) (b : Byte) (rest : List Byte)
    (h : ∀ k < sent.length + 1, f k = .ack) (ht : f (sent.length + 1) = .timeout) :
    sessionRun f a (sent ++ b :: rest) = ⟨.timeout, sent.length + 2, cutSession a sent b⟩ := by
  rw [sessionRun, h 0 (by omega), writeRun_cut sent b rest _ (fun k hk => h (k + 1) (by omega)) ht]
  simp [cutSession]

end Sys2Proof.Machine
end

