-- ==== Sys2Proof/Laws/Exec.lean ====
section
/-! SUPPORT. What performing a command does, said once for all ten: the gate, then the command's own effect, then the
completion (R90, R201); and what a step can do, said once. -/

namespace Sys2Proof.Machine

theorem gated_inited {p : State → Code × State} {s : State} (h : s.inited = true) :
    gated p s = complete (p s).1 (p s).2 := if_pos h

theorem gated_notInit {p : State → Code × State} {s : State} (h : s.inited = false) :
    gated p s = complete .notInit s := if_neg (by simp [h])

/-- FLUSH's session (R145). -/
theorem flushFrame_spec (s : State) :
    flushFrame s =
      let r := sessionRun s.answerAt Config.addrW (frameBytes s.fb)
      (answerCode r.answer, s.ran r.draws r.events false) := by
  rw [flushFrame, transfer_spec]

/-- A glyph's effect (R170, R178): the paint, then the session of the painted buffer. -/
theorem paintAndFlush_spec (lit : Fin 8 → Fin 8 → Bool) (s : State) :
    paintAndFlush lit s =
      let r := sessionRun s.answerAt Config.addrW (frameBytes (s.fb.paint lit))
      (answerCode r.answer, { s.ran r.draws r.events false with fb := s.fb.paint lit }) := by
  rw [paintAndFlush, flushFrame_spec]
  rfl

/-- INITED after INIT's sessions: set if they were all acknowledged, else as it was (R192). -/
def initedAfter (r : Answer) (inited : Bool) : Bool :=
  match r with
  | .ack => true
  | .timeout => inited

/-- INIT's effect (R190, R192). -/
theorem initSequence_spec (s : State) :
    initSequence s =
      let r := sessionsRun s.answerAt Config.addrW initCommands
      (answerCode r.answer,
        { s.ran r.draws r.events false with inited := initedAfter r.answer s.inited }) := by
  rw [initSequence, initCommands, transferEach_spec]
  generalize sessionsRun s.answerAt Config.addrW _ = r
  cases h : r.answer <;> simp [h, answerCode, initedAfter, State.ran]

/-- The effect of a command that passes the gate: the code it ends with and the state before completion. -/
def effect : Instr → State → Code × State
  | .init, s => initSequence s
  | .setPixel x y, s => (.ok, { s with fb := s.fb.setPixel x y })
  | .clearPixel x y, s => (.ok, { s with fb := s.fb.clearPixel x y })
  | .clearAll, s => (.ok, { s with fb := .ofRows fun _ => 0x00#8 })
  | .rotateLeft, s => (.ok, { s with fb := .ofRows fun y => rol8 (s.fb.row y) 1 })
  | .rotateRight, s => (.ok, { s with fb := .ofRows fun y => ror8 (s.fb.row y) 1 })
  | .flush, s => flushFrame s
  | .drawArrow u, s => paintAndFlush (fun x y => arrowShape x (virtualRow u y)) s
  | .drawCheckmark, s => paintAndFlush checkmarkShape s
  | .getPixel x y, s => (.ok, { s with pixel := s.fb.getPixel x y })

/-- R90, R92, R201: everything performing a command does. -/
theorem exec_eq (i : Instr) (s : State) :
    exec i s = .next (if i = .init ∨ s.inited = true then complete (effect i s).1 (effect i s).2
      else complete .notInit s) := by
  cases h : s.inited <;> cases i <;>
    simp [exec, effect, execInit, execSetPixel, execClearPixel, execClearAll, execRotateLeft, execRotateRight,
      execFlush, execDrawArrow, execDrawCheckmark, execGetPixel, gated, h]

theorem exec_inited {i : Instr} {s : State} (h : s.inited = true) :
    exec i s = .next (complete (effect i s).1 (effect i s).2) := by
  rw [exec_eq, if_pos (Or.inr h)]

theorem exec_init (s : State) : exec .init s = .next (complete (effect .init s).1 (effect .init s).2) := by
  rw [exec_eq, if_pos (Or.inl rfl)]

theorem exec_notInit {i : Instr} {s : State} (hi : i ≠ .init) (h : s.inited = false) :
    exec i s = .next (complete .notInit s) := by
  rw [exec_eq, if_neg (by simp [hi, h])]

/-- The effect of every command, in one frame: the transport run it makes, and the fields it may write (R39). -/
theorem effect_frame (i : Instr) (s : State) :
    ∃ r : TransportRun, ∃ v : Bool,
      (effect i s).2 = { s.ran r.draws r.events v with
        fb := (effect i s).2.fb, inited := (effect i s).2.inited, pixel := (effect i s).2.pixel } ∧
      (drivesTransport i = false → r = ⟨.ack, 0, []⟩ ∧ v = s.session ∧ (effect i s).1 = .ok) ∧
      (drivesTransport i = true → v = false ∧ (effect i s).1 = answerCode r.answer ∧
        (r = sessionsRun s.answerAt Config.addrW initCommands ∨
          ∃ bytes, r = sessionRun s.answerAt Config.addrW bytes)) ∧
      (s.inited = true → (effect i s).2.inited = true) ∧
      ((effect i s).2.inited = true → s.inited = true ∨
        (r = sessionsRun s.answerAt Config.addrW initCommands ∧ r.answer = .ack)) := by
  cases i with
  | init =>
    refine ⟨sessionsRun s.answerAt Config.addrW initCommands, false, ?_⟩
    rw [show effect .init s = _ from initSequence_spec s]
    refine ⟨rfl, fun h => (by cases h), fun _ => ⟨rfl, rfl, Or.inl rfl⟩, fun h => ?_, fun h => ?_⟩ <;>
      cases hr : (sessionsRun s.answerAt Config.addrW initCommands).answer
    · simp [hr, initedAfter]
    · simpa [hr, initedAfter] using h
    · exact Or.inr ⟨rfl, rfl⟩
    · exact Or.inl (by simpa [hr, initedAfter] using h)
  | flush =>
    refine ⟨sessionRun s.answerAt Config.addrW (frameBytes s.fb), false, ?_⟩
    rw [show effect .flush s = _ from flushFrame_spec s]
    exact ⟨rfl, fun h => (by cases h), fun _ => ⟨rfl, rfl, Or.inr ⟨_, rfl⟩⟩, id, Or.inl⟩
  | drawArrow u =>
    refine ⟨sessionRun s.answerAt Config.addrW
      (frameBytes (s.fb.paint fun x y => arrowShape x (virtualRow u y))), false, ?_⟩
    rw [show effect (.drawArrow u) s = _ from paintAndFlush_spec _ s]
    exact ⟨rfl, fun h => (by cases h), fun _ => ⟨rfl, rfl, Or.inr ⟨_, rfl⟩⟩, id, Or.inl⟩
  | drawCheckmark =>
    refine ⟨sessionRun s.answerAt Config.addrW (frameBytes (s.fb.paint checkmarkShape)), false, ?_⟩
    rw [show effect .drawCheckmark s = _ from paintAndFlush_spec _ s]
    exact ⟨rfl, fun h => (by cases h), fun _ => ⟨rfl, rfl, Or.inr ⟨_, rfl⟩⟩, id, Or.inl⟩
  | _ =>
    exact ⟨⟨.ack, 0, []⟩, s.session, by simp [effect], fun _ => ⟨rfl, rfl, rfl⟩, fun h => (by cases h), id, Or.inl⟩

/-- A command outside R23's list keeps the frame buffer (R39). -/
theorem effect_fb {i : Instr} (h : writesFrameBuffer i = false) (s : State) : (effect i s).2.fb = s.fb := by
  cases i <;> simp only [writesFrameBuffer] at h <;> try cases h
  · simp only [effect, initSequence_spec]; rfl
  · simp only [effect, flushFrame_spec]; rfl
  · rfl

/-- R32: PIXEL is written by GET_PIXEL alone. -/
theorem effect_pixel {i : Instr} (h : ∀ x y, i ≠ .getPixel x y) (s : State) : (effect i s).2.pixel = s.pixel := by
  cases i with
  | getPixel x y => exact absurd rfl (h x y)
  | init => simp only [effect, initSequence_spec]; rfl
  | flush => simp only [effect, flushFrame_spec]; rfl
  | drawArrow u => simp only [effect, paintAndFlush_spec]; rfl
  | drawCheckmark => simp only [effect, paintAndFlush_spec]; rfl
  | _ => rfl

/-- What one step can do: idle, the CONTROLLER's transition, or one HOST action; a contested turn may be drawn first. -/
theorem step_cases {s : State} {o : Host.Outcome State Fault Refusal} (h : step s = o) :
    (o = .next s ∧ s.command = none) ∨
    (∃ s', (s' = s ∨ s' = dropTurn s) ∧ o = controllerAct s' ∧ s.command.isSome = true) ∨
    (∃ s' a rest, (s' = s ∨ s' = dropTurn s) ∧ s.host = a :: rest ∧ o = hostAct a { s' with host := rest } ∧
      (a = .wait → s.busy = false)) := by
  have host_cases : ∀ s' : State, s' = s ∨ s' = dropTurn s → hostReady s = true → hostMove s' = o →
      ∃ s' a rest, (s' = s ∨ s' = dropTurn s) ∧ s.host = a :: rest ∧ o = hostAct a { s' with host := rest } ∧
        (a = .wait → s.busy = false) := by
    intro s' hs hr hm
    have hh : s'.host = s.host := by
      rcases hs with rfl | rfl
      · rfl
      · exact dropTurn_host s
    unfold hostMove at hm
    rw [hh] at hm
    cases hl : s.host with
    | nil => simp [hostReady, hl] at hr
    | cons a rest =>
      rw [hl] at hm
      refine ⟨s', a, rest, hs, rfl, hm.symm, ?_⟩
      rintro rfl
      simpa [hostReady, hl] using hr
  unfold step move at h
  split at h
  · next hr hc =>
    refine Or.inl ⟨h.symm, ?_⟩
    simpa [controllerReady] using hc
  · next hr hc => exact Or.inr (Or.inr (host_cases s (Or.inl rfl) hr h))
  · next hr hc => exact Or.inr (Or.inl ⟨s, Or.inl rfl, h.symm, hc⟩)
  · next hr hc =>
    split at h
    · exact Or.inr (Or.inr (host_cases _ (Or.inr rfl) hr h))
    · exact Or.inr (Or.inl ⟨_, Or.inr rfl, h.symm, hc⟩)

/-- A STATUS read by the HOST, and the read with which a WAIT ends (R53, R89). -/
theorem hostAct_readStatus {a : HostAction} (h : a = .read statusOffset 4 ∨ a = .wait) (s : State) :
    hostAct a s = .next (readStatus s) := by
  rcases h with rfl | rfl <;> rfl

/-- What one HOST action can do to the state. -/
theorem hostAct_cases {a : HostAction} {s t : State} (h : hostAct a s = .next t) :
    (∃ v, a = .write cmdOffset 4 v ∧ s.busy = true ∧ t = overrun s) ∨
    (∃ v, a = .write cmdOffset 4 v ∧ s.busy = false ∧ t = accept v s) ∨
    (∃ v, t = deliver v s) ∨ t = readStatus s ∨ t = s := by
  unfold hostAct at h
  split at h
  · next o w v =>
    split at h
    · next hc =>
      obtain ⟨rfl, rfl⟩ := hc
      cases h
      unfold writeCmd
      cases hb : s.busy
      · exact Or.inr (Or.inl ⟨v, rfl, rfl, by simp⟩)
      · exact Or.inl ⟨v, rfl, rfl, by simp⟩
    · split at h
      · cases h; exact Or.inr (Or.inr (Or.inr (Or.inr rfl)))
      · cases h
  · split at h
    · cases h; exact Or.inr (Or.inr (Or.inl ⟨_, rfl⟩))
    · split at h
      · cases h; exact Or.inr (Or.inr (Or.inr (Or.inl rfl)))
      · cases h
  · cases h; exact Or.inr (Or.inr (Or.inr (Or.inl rfl)))

/-- What the CONTROLLER's transition can do to the state. -/
theorem controllerAct_cases {s t : State} (h : controllerAct s = .next t) :
    (s.command = none ∧ t = s) ∨
    (∃ why, s.command = some (.illegal why) ∧ t = complete .illegal s) ∨
    (∃ i, s.command = some (.command i) ∧ i ≠ .init ∧ s.inited = false ∧ t = complete .notInit s) ∨
    (∃ i, s.command = some (.command i) ∧ (i = .init ∨ s.inited = true) ∧
      t = complete (effect i s).1 (effect i s).2) := by
  unfold controllerAct at h
  split at h
  · next i hc =>
    rw [exec_eq] at h
    split at h
    · next hg => cases h; exact Or.inr (Or.inr (Or.inr ⟨i, hc, hg, rfl⟩))
    · next hg =>
      cases h
      refine Or.inr (Or.inr (Or.inl ⟨i, hc, fun hi => hg (Or.inl hi), ?_, rfl⟩))
      simpa using fun hi => hg (Or.inr hi)
  · next why hc => cases h; exact Or.inr (Or.inl ⟨why, hc, rfl⟩)
  · next hc => cases h; exact Or.inl ⟨hc, rfl⟩

end Sys2Proof.Machine
end

