-- ==== Sys2Proof/Laws/PerInstr.lean ====
section
/-! SUPPORT. Facts about each command as syntax, one lemma per constructor, over the fields of the three formats. -/

namespace Sys2Proof

/-- Bit k of a word made of an opcode byte and 24 operand bits. -/
theorem word_bit (op : Byte) (z : BitVec 24) (k : Nat) :
    (op ++ z : Word).getLsbD k = if k < 24 then z.getLsbD k else op.getLsbD (k - 24) := by
  exact (BitVec.getLsbD_append (x := op) (y := z) (i := k)).trans (by split <;> rfl)

/-- OP of a word is its upper byte (R80). -/
theorem fieldOp_word (op : Byte) (z : BitVec 24) : fieldOp (op ++ z) = op := by
  apply BitVec.eq_of_getLsbD_eq
  intro k hk
  rw [fieldOp, BitVec.getLsbD_extractLsb', word_bit, if_neg (by omega)]
  simp [hk]

/-- The 24 operand bits of a word are its lower part (R80). -/
theorem operands_word (op : Byte) (z : BitVec 24) : (op ++ z : Word).extractLsb' 0 24 = z := by
  apply BitVec.eq_of_getLsbD_eq
  intro k hk
  rw [BitVec.getLsbD_extractLsb', word_bit]
  simp [hk]

/-- The operand bits of format FXY: RSV, X, Y from the top (R81). -/
theorem fieldRsv_FXY (op x y : Byte) : fieldRsv (encodeFXY op x y) = 0#8 := by
  apply BitVec.eq_of_getLsbD_eq
  intro k hk
  have h : (0#8 ++ (x ++ y) : BitVec 24).getLsbD (16 + k) = _ :=
    BitVec.getLsbD_append (x := 0#8) (y := (x ++ y : BitVec 16))
  rw [fieldRsv, BitVec.getLsbD_extractLsb', encodeFXY, word_bit, if_pos (by omega), h]
  simp

theorem fieldX_FXY (op x y : Byte) : fieldX (encodeFXY op x y) = x := by
  apply BitVec.eq_of_getLsbD_eq
  intro k hk
  have h : (0#8 ++ (x ++ y) : BitVec 24).getLsbD (8 + k) = _ :=
    BitVec.getLsbD_append (x := 0#8) (y := (x ++ y : BitVec 16))
  have g : (x ++ y : BitVec 16).getLsbD (8 + k) = _ := BitVec.getLsbD_append (x := x) (y := y)
  rw [fieldX, BitVec.getLsbD_extractLsb', encodeFXY, word_bit, if_pos (by omega), h]
  rw [if_pos (by omega), g, if_neg (by omega)]
  simp [hk]

theorem fieldY_FXY (op x y : Byte) : fieldY (encodeFXY op x y) = y := by
  apply BitVec.eq_of_getLsbD_eq
  intro k hk
  have h : (0#8 ++ (x ++ y) : BitVec 24).getLsbD (0 + k) = _ :=
    BitVec.getLsbD_append (x := 0#8) (y := (x ++ y : BitVec 16))
  have g : (x ++ y : BitVec 16).getLsbD (0 + k) = _ := BitVec.getLsbD_append (x := x) (y := y)
  rw [fieldY, BitVec.getLsbD_extractLsb', encodeFXY, word_bit, if_pos (by omega), h]
  rw [if_pos (by omega), g, if_pos (by omega)]
  simp [hk]

end Sys2Proof

namespace Sys2Proof.Laws.OpcodeField

/-- The opcode field of a command's word lies in the assigned range 0x01 to 0x0A, and its RSV field, which is 0 in every command,
reads 0 (R80, R85). -/
def Statement (i : Instr) : Prop :=
  1 ≤ (fieldOp (encode i)).toNat ∧ (fieldOp (encode i)).toNat ≤ 0x0A ∧ fieldRsv (encode i) = 0#8

theorem of_FXY (op x y : Byte) (h : 1 ≤ op.toNat ∧ op.toNat ≤ 0x0A) :
    1 ≤ (fieldOp (encodeFXY op x y)).toNat ∧ (fieldOp (encodeFXY op x y)).toNat ≤ 0x0A ∧
      fieldRsv (encodeFXY op x y) = 0#8 := by
  rw [fieldRsv_FXY, encodeFXY, fieldOp_word]
  exact ⟨h.1, h.2, rfl⟩

theorem init : Statement .init := by unfold Statement; decide
theorem setPixel (x y : Byte) : Statement (.setPixel x y) := of_FXY _ x y (by decide)
theorem clearPixel (x y : Byte) : Statement (.clearPixel x y) := of_FXY _ x y (by decide)
theorem clearAll : Statement .clearAll := by unfold Statement; decide
theorem rotateLeft : Statement .rotateLeft := by unfold Statement; decide
theorem rotateRight : Statement .rotateRight := by unfold Statement; decide
theorem flush : Statement .flush := by unfold Statement; decide
theorem drawArrow (u : Bool) : Statement (.drawArrow u) := by unfold Statement; revert u; decide
theorem drawCheckmark : Statement .drawCheckmark := by unfold Statement; decide
theorem getPixel (x y : Byte) : Statement (.getPixel x y) := of_FXY _ x y (by decide)

end Sys2Proof.Laws.OpcodeField
end

