-- ==== Sys2Proof/WellFormed.lean ====
section
/-! DEFINITION. Well-formedness. A term of `Instr` holds its operands at their field's width and is well formed by its
type. What can be ill formed is a line as written: a coordinate, a count or a value outside its range is an assembly
error and has no encoding (R84, R89). -/

namespace Sys2Proof

/-- A coordinate as written: an integer 0..255 (R89). -/
def Coordinate.wf (n : Nat) : Bool := decide (n < 256)

/-- A rotate count: 0 to 7 (R84). -/
def RotateCount.wf (n : Nat) : Bool := decide (n < 8)

/-- The values a STATUS field can hold: one bit, three bits for ERR (R29). -/
def StatusField.wf (f : StatusField) (n : Nat) : Bool :=
  match f with
  | .err => decide (n < 8)
  | .busy | .inited | .pixel | .ovr | .fault => decide (n < 2)

/-- A line that assembles (R84, R89). -/
def Line.wf : Line → Bool
  | .setPixel x y => Coordinate.wf x && Coordinate.wf y
  | .clearPixel x y => Coordinate.wf x && Coordinate.wf y
  | .getPixel x y => Coordinate.wf x && Coordinate.wf y
  | .putPixel x y _ => Coordinate.wf x && Coordinate.wf y
  | .expect f v => StatusField.wf f v
  | .word v => decide (v < 2 ^ 32)
  | .rotateLeftN n => RotateCount.wf n
  | .rotateRightN n => RotateCount.wf n
  | .init | .clearAll | .rotateLeft | .rotateRight | .flush | .drawArrow _ | .drawCheckmark
  | .wait | .showArrow _ | .showCheckmark | .blank => true

end Sys2Proof
end

