-- ==== Sys2Proof/Machine/Program.lean ====
section
/-! DEFINITION. What the HOST does for a line of a program (R84, R89): pseudo-instructions expand to commands, each
command is a CMD write followed by WAIT. -/

namespace Sys2Proof.Machine

/-- The commands a line stands for (R84, R89); a directive stands for none. -/
def lineCommands : Line → List Instr
  | .init => [.init]
  | .setPixel x y => [.setPixel (BitVec.ofNat 8 x) (BitVec.ofNat 8 y)]
  | .clearPixel x y => [.clearPixel (BitVec.ofNat 8 x) (BitVec.ofNat 8 y)]
  | .clearAll => [.clearAll]
  | .rotateLeft => [.rotateLeft]
  | .rotateRight => [.rotateRight]
  | .flush => [.flush]
  | .drawArrow up => [.drawArrow up]
  | .drawCheckmark => [.drawCheckmark]
  | .getPixel x y => [.getPixel (BitVec.ofNat 8 x) (BitVec.ofNat 8 y)]
  | .wait => []
  | .expect _ _ => []
  | .word _ => []
  | .showArrow up => [.clearAll, .drawArrow up]
  | .showCheckmark => [.clearAll, .drawCheckmark]
  | .putPixel x y lit =>
    if lit then [.setPixel (BitVec.ofNat 8 x) (BitVec.ofNat 8 y)]
    else [.clearPixel (BitVec.ofNat 8 x) (BitVec.ofNat 8 y)]
  | .rotateLeftN n => List.replicate n .rotateLeft
  | .rotateRightN n => List.replicate n .rotateRight
  | .blank => [.clearAll, .flush]

/-- A word written to CMD, then WAIT: the program convention (R89). -/
def issue (v : Word) : List HostAction := [.write cmdOffset 4 v, .wait]

/-- What the HOST does for a line (R89; log entry 11): an ill-formed line is an assembly error. -/
def lineActions (l : Line) : Option (List HostAction) :=
  if l.wf then
    match l with
    | .wait => some [.wait]
    | .expect _ _ => some [.read statusOffset 4]
    | .word v => some (issue (BitVec.ofNat 32 v))
    | l => some ((lineCommands l).flatMap fun i => issue (encode i))
  else none

/-- The value of a field of a STATUS word, which an EXPECT compares (R29, R89). -/
def statusValue (f : StatusField) (w : Word) : Nat :=
  match f with
  | .busy => (w.extractLsb' 0 1).toNat
  | .inited => (w.extractLsb' 1 1).toNat
  | .pixel => (w.extractLsb' 2 1).toNat
  | .err => (w.extractLsb' 4 3).toNat
  | .ovr => (w.extractLsb' 8 1).toNat
  | .fault => (w.extractLsb' 9 1).toNat

/-- What a program makes the HOST do, line by line; none if a line does not assemble (R89). -/
def programActions : List Line → Option (List HostAction)
  | [] => some []
  | l :: rest =>
    match lineActions l, programActions rest with
    | some a, some b => some (a ++ b)
    | _, _ => none

end Sys2Proof.Machine
end

