-- ==== Sys2Proof/Tests/Slice0.lean ====
section
/-! SUPPORT. Tests: well-formedness, the encodings written out bit by bit, one or two checks per command from the spec's own
examples and vectors, and for every statement with hypotheses a state that meets them. -/

namespace Sys2Proof.Tests

open Sys2Proof Sys2Proof.Machine

/-! ### Well-formedness: an ill-formed line for each check (R84, R89) -/

theorem test_wf_setPixel_x : Line.wf (.setPixel 256 0) = false ∧ Line.wf (.setPixel 255 255) = true := by decide
theorem test_wf_setPixel_y : Line.wf (.setPixel 0 256) = false := by decide
theorem test_wf_clearPixel : Line.wf (.clearPixel 256 0) = false ∧ Line.wf (.clearPixel 0 256) = false := by decide
theorem test_wf_getPixel : Line.wf (.getPixel 256 0) = false ∧ Line.wf (.getPixel 0 256) = false := by decide
theorem test_wf_putPixel : Line.wf (.putPixel 256 0 true) = false ∧ Line.wf (.putPixel 0 256 false) = false := by decide
theorem test_wf_expect_bit : Line.wf (.expect .busy 2) = false ∧ Line.wf (.expect .pixel 1) = true := by decide
theorem test_wf_expect_err : Line.wf (.expect .err 8) = false ∧ Line.wf (.expect .err 3) = true := by decide
theorem test_wf_word : Line.wf (.word (2 ^ 32)) = false ∧ Line.wf (.word 0) = true := by decide
theorem test_wf_rotateLeftN : Line.wf (.rotateLeftN 8) = false ∧ Line.wf (.rotateLeftN 7) = true := by decide
theorem test_wf_rotateRightN : Line.wf (.rotateRightN 8) = false ∧ Line.wf (.rotateRightN 0) = true := by decide

/-- R84: SHOW_CHECKMARK is CLEAR_ALL, DRAW_CHECKMARK, each a CMD write and a WAIT (R89; words of R85). -/
theorem test_line_showCheckmark : lineActions .showCheckmark =
    some [.write 0 4 0x04000000#32, .wait, .write 0 4 0x09000000#32, .wait] := by decide
/-- R89: an ill-formed line is an assembly error; R84: ROTATE_LEFT_N 0 is no command. -/
theorem test_line_edges : lineActions (.setPixel 300 0) = none ∧ lineActions (.rotateLeftN 0) = some [] := by decide
/-- 95_test_vectors.md L2.8: 0x00000236 shows INITED, PIXEL, ERR = 3, FAULT. -/
theorem test_statusValue : statusValue .err 0x00000236#32 = 3 ∧ statusValue .fault 0x00000236#32 = 1 ∧
    statusValue .busy 0x00000236#32 = 0 := by decide

/-! ### Encodings, bit 31 first (R81, R85) -/

theorem test_decode_init : decode 0b00000001000000000000000000000000#32 = .command .init := by decide
theorem test_decode_setPixel :
    decode 0b00000010000000000000010000000011#32 = .command (.setPixel 4#8 3#8) := by decide
theorem test_decode_clearPixel :
    decode 0b00000011000000000000011111111111#32 = .command (.clearPixel 7#8 255#8) := by decide
theorem test_decode_clearAll : decode 0b00000100000000000000000000000000#32 = .command .clearAll := by decide
theorem test_decode_rotateLeft : decode 0b00000101000000000000000000000000#32 = .command .rotateLeft := by decide
theorem test_decode_rotateRight : decode 0b00000110000000000000000000000000#32 = .command .rotateRight := by decide
theorem test_decode_flush : decode 0b00000111000000000000000000000000#32 = .command .flush := by decide
theorem test_decode_drawArrow_down : decode 0b00001000000000000000000000000000#32 = .command (.drawArrow false) := by decide
theorem test_decode_drawArrow_up : decode 0b00001000000000000000000000000001#32 = .command (.drawArrow true) := by decide
theorem test_decode_drawCheckmark : decode 0b00001001000000000000000000000000#32 = .command .drawCheckmark := by decide
theorem test_decode_getPixel :
    decode 0b00001010000000001000000000000111#32 = .command (.getPixel 128#8 7#8) := by decide

/-- The illegal words of 95_test_vectors.md L2.1. -/
theorem test_decode_reservedBits : decode 0x01000001#32 = .illegal .reservedBits ∧ decode 0x02010303#32 = .illegal .reservedBits ∧
    decode 0x04800000#32 = .illegal .reservedBits ∧ decode 0x07000100#32 = .illegal .reservedBits ∧
    decode 0x08000002#32 = .illegal .reservedBits ∧ decode 0x08000100#32 = .illegal .reservedBits ∧
    decode 0x0AFF0000#32 = .illegal .reservedBits := by decide
theorem test_decode_unassignedOpcode : decode 0x00000000#32 = .illegal .unassignedOpcode ∧
    decode 0x0B000000#32 = .illegal .unassignedOpcode ∧ decode 0xFF000000#32 = .illegal .unassignedOpcode ∧
    decode 0xFFFFFFFF#32 = .illegal .unassignedOpcode := by decide

theorem test_decodeTableWord : decodeTableWord 32 0x02000403 = some (.setPixel 4#8 3#8) ∧
    decodeTableWord 32 0x00000000 = none := by decide

/-! ### The commands (95_test_vectors.md L1, L2; the rules' own examples) -/

/-- A frame buffer by its rows. -/
def buffer (a b c d e f g h : Byte) : FrameBuffer := ⟨a, b, c, d, e, f, g, h⟩

/-- Initialised, with the given rows and the TRANSPORT's answers to come. -/
def ready (fb : FrameBuffer) (answers : List Answer) : State :=
  { State.reset with inited := true, fb := fb, answers := answers }

/-- The blank frame buffer. -/
def blankBuffer : FrameBuffer := State.reset.fb

/-- Eighteen acknowledgements, as many as a frame session draws. -/
def acks : List Answer := List.replicate 18 .ack

/-- The state after a command, if it answers one. -/
def after (i : Instr) (s : State) : State :=
  match exec i s with
  | .next t => t
  | _ => s

/-- L2.2: FB[3] = 08, SET_PIXEL 4, 3. -/
theorem test_setPixel : (after (.setPixel 4#8 3#8) (ready (buffer 0 0 0 0x08 0 0 0 0) [])).fb =
    buffer 0 0 0 0x18 0 0 0 0 := by decide
/-- L1.2: SET_PIXEL 8, 0 leaves the buffer. -/
theorem test_setPixel_out : (after (.setPixel 8#8 0#8) (ready (buffer 1 2 4 8 16 32 64 128) [])).fb =
    buffer 1 2 4 8 16 32 64 128 := by decide
/-- L2.2: CLEAR_PIXEL 7, 6 on FF. -/
theorem test_clearPixel : (after (.clearPixel 7#8 6#8) (ready (buffer 0 0 0 0 0 0 0xFF 0) [])).fb =
    buffer 0 0 0 0 0 0 0x7F 0 := by decide
/-- L1.2: CLEAR_PIXEL 0, 8 leaves the buffer. -/
theorem test_clearPixel_out : (after (.clearPixel 0#8 8#8) (ready (buffer 1 2 4 8 16 32 64 128) [])).fb =
    buffer 1 2 4 8 16 32 64 128 := by decide
/-- L1.3: the last row is cleared too. -/
theorem test_clearAll : (after .clearAll (ready (buffer 255 255 255 255 255 255 255 255) [])).fb = blankBuffer := by decide
/-- L2.2: FB[2] = 20, GET_PIXEL 5, 2 gives 1. -/
theorem test_getPixel : (after (.getPixel 5#8 2#8) (ready (buffer 0 0 0x20 0 0 0 0 0) [])).pixel = true := by decide
/-- L2.2: GET_PIXEL 0, 200 out of range gives 0. -/
theorem test_getPixel_out : (after (.getPixel 0#8 200#8)
    { ready (buffer 255 255 255 255 255 255 255 255) [] with pixel := true }).pixel = false := by decide
/-- L2.3: each row by itself. -/
theorem test_rotateLeft : (after .rotateLeft (ready (buffer 0x01 0x81 0x0F 0xAA 0 0xFF 0x18 0x80) [])).fb =
    buffer 0x02 0x03 0x1E 0x55 0 0xFF 0x30 0x01 := by decide
/-- L2.3. -/
theorem test_rotateRight : (after .rotateRight (ready (buffer 0x01 0x81 0x0F 0xAA 0 0xFF 0x18 0x80) [])).fb =
    buffer 0x80 0xC0 0x87 0x55 0 0xFF 0x0C 0x40 := by decide
/-- L1.5, L2.4: the corrected vector 0x80, and others. -/
theorem test_wxf : [0x00#8, 0x01#8, 0x02#8, 0x80#8, 0x73#8, 0xDB#8].map wxf =
    [0x00#8, 0x80#8, 0x01#8, 0x40#8, 0xB9#8, 0xED#8] := by decide
/-- L2.5: the diagonal, all acknowledged, on the wire after the address byte. -/
theorem test_flush_wire : ((wireBytes (after .flush (ready (buffer 1 2 4 8 16 32 64 128) acks)).trace).drop 1) =
    [0x00#8, 0x40#8, 0#8, 0x20#8, 0#8, 0x10#8, 0#8, 0x08#8, 0#8, 0x04#8, 0#8, 0x02#8, 0#8, 0x01#8, 0#8, 0x80#8, 0#8] := by
  decide
/-- L2.5: OPEN answered TIMEOUT. -/
theorem test_flush_timeout : (after .flush (ready blankBuffer [.timeout])).trace = [.opened Config.addrW .timeout, .closed] ∧
    (after .flush (ready blankBuffer [.timeout])).status = 0x00000212#32 := ⟨rfl, by decide⟩
/-- L2.6. -/
theorem test_drawArrow_down : (after (.drawArrow false) (ready blankBuffer acks)).fb =
    buffer 0x18 0x18 0x18 0xDB 0xFF 0x7E 0x3C 0x18 := by decide
/-- L2.6. -/
theorem test_drawArrow_up : (after (.drawArrow true) (ready blankBuffer acks)).fb =
    buffer 0x18 0x3C 0x7E 0xFF 0xDB 0x18 0x18 0x18 := by decide
/-- L2.6: the paint stays when a WRITE is answered TIMEOUT. -/
theorem test_drawCheckmark : (after .drawCheckmark (ready blankBuffer [.ack, .ack, .timeout])).fb =
    buffer 0xC0 0xC0 0xE0 0x60 0x73 0x3F 0x1E 0x0C ∧
    (after .drawCheckmark (ready blankBuffer [.ack, .ack, .timeout])).err = .timeout := by decide
/-- L2.7, first row. -/
theorem test_init : (after .init { State.reset with answers := acks }).trace =
    [.opened Config.addrW .ack, .wrote (Config.initCmd 0) .ack, .closed,
      .opened Config.addrW .ack, .wrote (Config.initCmd 1) .ack, .closed,
      .opened Config.addrW .ack, .wrote (Config.initCmd 2) .ack, .closed,
      .opened Config.addrW .ack, .wrote (Config.initCmd 3) .ack, .closed] ∧
    (after .init { State.reset with answers := acks }).status = 0x00000002#32 := ⟨rfl, by decide⟩
/-- L2.7, third row: the WRITE of session 2. -/
theorem test_init_timeout :
    (after .init { State.reset with answers := [.ack, .ack, .ack, .ack, .ack, .timeout] }).trace =
      [.opened Config.addrW .ack, .wrote (Config.initCmd 0) .ack, .closed,
        .opened Config.addrW .ack, .wrote (Config.initCmd 1) .ack, .closed,
        .opened Config.addrW .ack, .wrote (Config.initCmd 2) .timeout, .closed] ∧
    (after .init { State.reset with answers := [.ack, .ack, .ack, .ack, .ack, .timeout] }).inited = false :=
  ⟨rfl, by decide⟩

/-! ### The step (95_test_vectors.md L2.8) -/

/-- The state after a step, if it answers one. -/
def stepped (s : State) : State :=
  match step s with
  | .next t => t
  | _ => s

/-- L2.8: SET_PIXEL 1, 1 first after reset. -/
theorem test_notInit : (stepped (State.reset.withFetchWord 32 0x02000101)).status = 0x00000220#32 := by decide
/-- L2.8: ILLEGAL wins over NOT_INIT. -/
theorem test_illegal : (stepped (State.reset.withFetchWord 32 0x02010101)).status = 0x00000230#32 := by decide
/-- L2.8: an illegal GET_PIXEL leaves PIXEL. -/
theorem test_illegal_pixel :
    (stepped ({ ready blankBuffer [] with pixel := true }.withFetchWord 32 0x0A010000)).status = 0x00000236#32 := by decide

/-- A CLEAR_ALL in execution, with the HOST's actions to come and the turns to take. -/
def executing (host : List HostAction) (turns : List Agent) : State :=
  { ready blankBuffer [] with
    busy := true, command := some (.command .clearAll), lastCommand := .written, host := host, turns := turns }

/-- R52, R90: the CMD write of CLEAR_ALL is accepted by one step of the HOST. -/
theorem test_accept : stepped { ready blankBuffer [] with host := [.write 0 4 0x04000000#32] } = executing [] [] := by
  decide
/-- L2.8: a write while BUSY = 1 is dropped; the STATUS after completion. -/
theorem test_overrun :
    (stepped (stepped (executing [.write 0 4 0x07000000#32] [.host]))).status = 0x00000302#32 ∧
    (stepped (executing [.write 0 4 0x07000000#32] [.host])).command = some (.command .clearAll) := by decide
/-- L2.8: a CMD read returns 0. -/
theorem test_read_cmd : (stepped { ready blankBuffer [] with host := [.read 0 4] }).hostReads = [0#32] := by decide
/-- L2.8: a byte read at offset 0x4 is BadHostAccess. -/
theorem test_badHostAccess : step { State.reset with host := [.read 4 1] } = .fault (.badHostAccess 4 1) := rfl
/-- R89: a WAIT lets the CONTROLLER go on, and returns the STATUS read with BUSY = 0. -/
theorem test_wait : (stepped (executing [.wait] [])).busy = false ∧
    (stepped (stepped (executing [.wait] []))).hostReads = [0x00000002#32] := by decide

/-! ### Every statement's hypotheses are met -/

theorem test_hyps_EncodeOfDecode : decode 0x04000000#32 = .command .clearAll := by decide

theorem test_hyps_StepRunsDecodedCommand :
    ((executing [] []).command = some (.command .clearAll) ∧ hostReady (executing [] []) = false) ∧
    ((executing [.read 4 4] [.controller]).command = some (.command .clearAll) ∧
      hostReady (executing [.read 4 4] [.controller]) = true ∧
      (executing [.read 4 4] [.controller]).turns = .controller :: []) ∧
    decode (tableWord 32 0x04000000) = .command .clearAll := by decide

theorem test_hyps_StepMovesOneAgent :
    (State.reset.command = none ∧ State.reset.host = []) ∧
    (∃ s : State, s.command = none ∧ s.busy = false ∧ s.host = .wait :: []) ∧
    ((executing [] []).command = some (.command .clearAll) ∧ (executing [] []).host = []) ∧
    ((executing [.wait] []).command = some (.command .clearAll) ∧ (executing [.wait] []).busy = true ∧
      (executing [.wait] []).host = .wait :: []) ∧
    ((executing [.read 4 4] [.host]).host = .read 4 4 :: [] ∧ (.read 4 4 : HostAction) ≠ .wait ∧
      (executing [.read 4 4] [.host]).turns = .host :: []) ∧
    (executing [.read 4 4] [.controller]).turns = .controller :: [] ∧ (executing [.read 4 4] []).turns = [] :=
  ⟨by decide, ⟨{ State.reset with host := [.wait] }, rfl, rfl, rfl⟩, by decide, by decide, by decide, by decide, by decide⟩

theorem test_hyps_CmdWriteAcceptedOrOverrun : State.reset.busy = false ∧ (executing [] []).busy = true := by decide

theorem test_hyps_UnsupportedAccessFaults :
    ∀ a ∈ [(0, 1), (4, 2), (1, 4), (3, 4), (5, 4), (8, 4), (0, 0), (0, 8)], ¬ (a.2 = 4 ∧ (a.1 = 0x0 ∨ a.1 = 0x4)) := by
  decide

theorem test_hyps_StatusWordFields : ∀ k ∈ [3, 7, 10, 31], k = 3 ∨ k = 7 ∨ 10 ≤ k := by decide

theorem test_hyps_AcceptedCommandCompletes :
    (executing [] []).command = some (.command .clearAll) ∧ (executing [] []).session = false := by decide

theorem test_hyps_IllegalWordCompletes : ∃ s : State, ∃ why, decode 0#32 = .illegal why ∧ s.command = some (decode 0#32) :=
  ⟨{ State.reset with command := some (decode 0#32) }, .unassignedOpcode, by decide, rfl⟩

theorem test_hyps_InitialisationGate : Instr.clearAll ≠ .init ∧ State.reset.inited = false := by decide

theorem test_hyps_CodesByCommand :
    (after .flush (ready blankBuffer [.timeout])).err = .timeout ∧ (after .flush State.reset).err = .notInit := by decide

theorem test_hyps_FrameOfSilentCommands :
    (drivesTransport .clearAll = false ∧ writesFrameBuffer .clearAll = true ∧
      ∃ t, exec .clearAll (ready blankBuffer []) = .next t) ∧
    (drivesTransport (.getPixel 0#8 0#8) = false ∧ writesFrameBuffer (.getPixel 0#8 0#8) = false ∧
      ∃ t, exec (.getPixel 0#8 0#8) (ready blankBuffer []) = .next t) :=
  ⟨⟨rfl, rfl, _, rfl⟩, rfl, rfl, _, rfl⟩

theorem test_hyps_FrameOfFlush : ∃ t, exec .flush (ready blankBuffer acks) = .next t := ⟨_, rfl⟩

theorem test_hyps_FrameOfGlyphs : writesFrameBuffer .drawCheckmark = true ∧ drivesTransport .drawCheckmark = true ∧
    ∃ t, exec .drawCheckmark (ready blankBuffer acks) = .next t := ⟨rfl, rfl, _, rfl⟩

theorem test_hyps_FrameOfInit : ∃ t, exec .init { State.reset with answers := acks } = .next t := ⟨_, rfl⟩

theorem test_hyps_PixelOnlyByGetPixel : ∃ t, step ((ready (buffer 1 0 0 0 0 0 0 0) []).withFetchWord 32 0x0A000000) = .next t ∧
    t.pixel ≠ ((ready (buffer 1 0 0 0 0 0 0 0) []).withFetchWord 32 0x0A000000).pixel := ⟨_, rfl, by decide⟩

/-- Of every statement whose hypothesis is INITED = 1, at the corners of the coordinates' range. -/
theorem test_hyps_inited : (ready blankBuffer []).inited = true ∧
    (∀ x ∈ [0#8, 7#8], x.toNat < 8) ∧ ∀ x ∈ [8#8, 255#8], 8 ≤ x.toNat := by decide

theorem test_hyps_GetPixelEffect : ((7 : Fin 8).val = (7#8).toNat ∧ (0 : Fin 8).val = (0#8).toNat) ∧
    (8 ≤ (8#8).toNat ∨ 8 ≤ (0#8).toNat) := by decide

theorem test_hyps_SetPixelLaw : ∃ t, exec (.setPixel 7#8 0#8) (ready blankBuffer []) = .next t ∧
    (7#8).toNat < 8 ∧ (0#8).toNat < 8 ∧ ¬ ((6#8 : Byte) = 7#8 ∧ (0#8 : Byte) = 0#8) := ⟨_, rfl, by decide⟩

theorem test_hyps_SetPixelLaw_out : ∃ t, exec (.setPixel 8#8 0#8) (ready blankBuffer []) = .next t ∧
    (8 ≤ (8#8).toNat ∨ 8 ≤ (0#8).toNat) := ⟨_, rfl, by decide⟩

theorem test_hyps_ClearPixelLaw : ∃ t, exec (.clearPixel 7#8 7#8) (ready blankBuffer []) = .next t ∧
    (7#8).toNat < 8 ∧ ¬ ((6 : Fin 8).val = (7#8).toNat ∧ (7 : Fin 8).val = (7#8).toNat) := ⟨_, rfl, by decide⟩

theorem test_hyps_ClearPixelLaw_out : ∃ t, exec (.clearPixel 0#8 8#8) (ready blankBuffer []) = .next t ∧
    (8 ≤ (0#8).toNat ∨ 8 ≤ (8#8).toNat) := ⟨_, rfl, by decide⟩

theorem test_hyps_GetPixelLaw : ∃ t u v, exec (.getPixel 1#8 1#8) (ready blankBuffer acks) = .next t ∧
    (∀ i ∈ [Instr.flush], writesFrameBuffer i = false) ∧ execAll [.flush] t = some u ∧
    exec (.getPixel 1#8 1#8) u = .next v := ⟨_, _, _, rfl, by decide, rfl, rfl⟩

theorem test_hyps_RotatePeriodIsEight :
    (ready (buffer 1 0 0 0 0 0 0 0) []).inited = true ∧ (ready (buffer 1 0 0 0 0 0 0 0) []).fb.row 0 = 0x01#8 ∧
    (0 < 1 ∧ 1 < 8) ∧ 0 < 7 ∧ 7 < 8 := by decide

theorem test_hyps_AllAck : (ready blankBuffer acks).inited = true ∧ (ready blankBuffer acks).AllAck 18 :=
  ⟨rfl, show ∀ k < 18, (ready blankBuffer acks).answerAt k = .ack by decide⟩

theorem test_hyps_AllAck_init : ({ State.reset with answers := List.replicate 8 .ack } : State).AllAck 8 :=
  show ∀ k < 8, ({ State.reset with answers := List.replicate 8 .ack } : State).answerAt k = .ack by decide

/-- The state whose answer `k` is the first TIMEOUT. -/
def timingOut (k : Nat) : State := ready blankBuffer (List.replicate k .ack ++ [.timeout])

theorem test_hyps_TimeoutAt_first : (timingOut 0).TimeoutAt 0 :=
  ⟨show ∀ k < 0, (timingOut 0).answerAt k = .ack by decide, by decide⟩

theorem test_hyps_TimeoutAt_last : 17 < 18 ∧ (timingOut 17).TimeoutAt 17 :=
  ⟨by decide, show ∀ k < 17, (timingOut 17).answerAt k = .ack by decide, by decide⟩

/-- SessionTrace: the three clauses on a session of two bytes. -/
theorem test_hyps_SessionTrace : [1#8, 2#8] = [1#8] ++ 2#8 :: [] ∧ (timingOut 2).TimeoutAt ([1#8].length + 1) ∧
    (timingOut 3).AllAck ([1#8, 2#8].length + 1) :=
  ⟨rfl, ⟨show ∀ k < 2, (timingOut 2).answerAt k = .ack by decide, by decide⟩,
    show ∀ k < 3, (timingOut 3).answerAt k = .ack by decide⟩

/-- InitTimesOut: the first and the last of the eight answers. -/
theorem test_hyps_InitTimesOut : (timingOut 0).TimeoutAt (2 * (0 : Fin 4).val + false.toNat) ∧
    (timingOut 7).TimeoutAt (2 * (3 : Fin 4).val + true.toNat) :=
  ⟨test_hyps_TimeoutAt_first, show ∀ k < 7, (timingOut 7).answerAt k = .ack by decide, by decide⟩

/-- Answers for two frame sessions. -/
def twiceAcks : State := ready blankBuffer (acks ++ acks)

theorem test_hyps_FlushIdempotent : ∃ t u v, exec .flush twiceAcks = .next t ∧
    (∀ i ∈ [Instr.getPixel 1#8 1#8], writesFrameBuffer i = false) ∧ execAll [.getPixel 1#8 1#8] t = some u ∧
    (∀ k < 18, u.answerAt k = twiceAcks.answerAt k) ∧ exec .flush u = .next v :=
  ⟨_, _, _, rfl, by decide, rfl, by decide, rfl⟩

theorem test_hyps_TransportMultiplexer : drivesTransport .clearAll = false ∧ drivesTransport .flush = true ∧
    Instr.flush ≠ .init ∧ (∃ t, exec .clearAll twiceAcks = .next t) ∧ ∃ t, exec .flush twiceAcks = .next t :=
  ⟨rfl, rfl, by decide, ⟨_, rfl⟩, _, rfl⟩

theorem test_hyps_ArrowMirrorLaw : (ready blankBuffer acks).inited = true ∧
    ∀ y : Fin 8, (ready blankBuffer acks).fb.row y = 0x00#8 := by decide

theorem test_hyps_GlyphsNeverClear : (Instr.drawCheckmark = .drawCheckmark ∨ ∃ u, Instr.drawCheckmark = .drawArrow u) ∧
    (ready (buffer 1 0 0 0 0 0 0 0) acks).fb.pixel 0 0 = true := ⟨Or.inl rfl, by decide⟩

theorem test_hyps_GlyphPaintPrecedesFlush : (ready blankBuffer acks).inited = true ∧
    (ready blankBuffer acks).fb = State.reset.fb ∧ State.reset.inited = false ∧ (timingOut 3).inited = true := by decide

/-- InitedOnlyWhenAcknowledged: a failed INIT before any other. -/
theorem test_hyps_InitedOnlyWhenAcknowledged : ({ State.reset with answers := [.timeout] } : State).inited = false ∧
    ({ State.reset with answers := [.timeout] } : State).TimeoutAt 0 ∧ Instr.flush ≠ .init :=
  ⟨rfl, ⟨nofun, by decide⟩, by decide⟩

theorem test_hyps_StepKeepsInvariant : (executing [] []).Inv ∧ ∃ t, step (executing [] []) = .next t :=
  ⟨⟨rfl, rfl, by decide, by decide, rfl, nofun⟩, _, rfl⟩

theorem test_hyps_StepKeepsInitEvidence : ∃ s t : State, s.InitEvidence ∧ s.inited = true ∧ step s = .next t :=
  ⟨{ State.reset with inited := true, trace := initTrace }, _, fun _ => List.infix_rfl, rfl, rfl⟩

theorem test_hyps_StickyFlags : ∃ t, step (executing [.write 0 4 0x07000000#32] [.host]) = .next t ∧
    (executing [.write 0 4 0x07000000#32] [.host]).ovr = false ∧ t.ovr = true := ⟨_, rfl, rfl, rfl⟩

theorem test_hyps_StickyFlags_set : ∃ s t : State, step s = .next t ∧ s.ovr = true ∧ s.fault = true ∧ s.inited = true :=
  ⟨{ executing [] [] with ovr := true, fault := true }, _, rfl, rfl, rfl, rfl⟩

theorem test_hyps_SafeEndMeansNoError : ∃ t, core.run 1 (executing [] []) = .next t ∧ t.Safe ∧ (executing [] []).Inv :=
  ⟨_, rfl, rfl, rfl, rfl, by decide, by decide, rfl, nofun⟩

theorem test_hyps_FrameBufferWriters : ∃ s t : State, step s = .next t ∧ t.fb ≠ s.fb :=
  ⟨{ executing [] [] with fb := buffer 1 0 0 0 0 0 0 0 }, _, rfl, by decide⟩

theorem test_hyps_FrameBufferIsHidden :
    (∀ i, (executing [] []).command = some (.command i) → showsFrameBuffer i = false) ∧
    ∃ t, step (executing [] []) = .next t :=
  ⟨fun i h => by cases h; rfl, _, rfl⟩

theorem test_hyps_FrameBufferIsHidden_fault :
    (∀ i, ({ State.reset with host := [.read 4 1] } : State).command = some (.command i) → showsFrameBuffer i = false) ∧
    step { State.reset with host := [.read 4 1] } = .fault (.badHostAccess 4 1) :=
  ⟨nofun, rfl⟩

theorem test_hyps_BusyFalls : (executing [.wait] []).Inv ∧ (executing [.wait] []).busy = true :=
  ⟨⟨rfl, rfl, by decide, by decide, rfl, nofun⟩, rfl⟩

/-- An initialised LFBC, its HOST's last command read back. -/
def ended (host : List HostAction) : State := { ready blankBuffer [] with lastCommand := .readBack, host := host }

/-- R234 on an ended run, with no access to come and with a STATUS read to come. -/
theorem test_hyps_EndedRunIsFinal : ((ended []).Inv ∧ (ended []).Ended ∧ (ended []).host = []) ∧
    (ended [.read 4 4]).Inv ∧ (ended [.read 4 4]).Ended ∧ ∃ t, core.run 1 (ended [.read 4 4]) = .next t :=
  ⟨⟨⟨rfl, rfl, by decide, by decide, rfl, fun _ => rfl⟩, ⟨rfl, rfl, nofun⟩, rfl⟩,
    ⟨rfl, rfl, by decide, by decide, rfl, fun _ => rfl⟩, ⟨rfl, rfl, fun v h => by simp [ended] at h⟩, _, rfl⟩

/-- The HOST's last command written, read with BUSY = 0 and with BUSY = 1. -/
theorem test_hyps_EndedRunIsFinal_read : (executing [] []).lastCommand = .written ∧ (executing [] []).NoCommandToCome ∧
    (executing [] []).busy = true ∧ ({ executing [] [] with busy := false, command := none } : State).busy = false :=
  ⟨rfl, nofun, rfl, rfl⟩

/-- R234: a CMD write with its WAIT from reset, and a CMD write alone. -/
theorem test_hyps_EndedRunIsFinal_write (v : Word) :
    ({ State.reset with host := [.write 0 4 v, .wait] } : State).Inv ∧
    ∃ t, core.run 1 { State.reset with host := [.write 0 4 v] } = .next t :=
  ⟨⟨rfl, rfl, fun h => absurd rfl h, nofun, rfl, nofun⟩, _, rfl⟩

/-- R234: BUSY = 0 after a CMD write is no end until the HOST has read it so. -/
theorem test_ended_needs_read :
    (stepped (executing [.read 4 4] [.controller])).busy = false ∧
    (stepped (executing [.read 4 4] [.controller])).lastCommand = .written ∧
    (stepped (stepped (executing [.read 4 4] [.controller]))).lastCommand = .readBack ∧
    (stepped (executing [.read 4 4] [.host])).lastCommand = .written := by decide

end Sys2Proof.Tests
end

section
/-! PROOFS. Whose move a step is: `hostReady` on the HOST's list, the draw of a contested turn, and `step` in each of the
cases of `move`; from these, the statements of 00_scope.md about the step. -/

namespace Sys2Proof.Machine

/-! ### Who can move -/

theorem hostReady_nil {s : State} (h : s.host = []) : hostReady s = false := by
  simp [hostReady, h]

/-- The HOST can take every action at once but a WAIT, which polls while BUSY = 1 (R89). -/
theorem hostReady_cons {s : State} {a : HostAction} {rest : List HostAction} (h : s.host = a :: rest) :
    hostReady s = (decide (a ≠ .wait) || !s.busy) := by
  cases a <;> simp [hostReady, h]

theorem hostReady_of_ne_wait {s : State} {a : HostAction} {rest : List HostAction} (h : s.host = a :: rest)
    (ha : a ≠ .wait) : hostReady s = true := by
  simp [hostReady_cons h, ha]

/-- Which turns are listed is no matter to whether the HOST can act. -/
@[simp] theorem hostReady_setTurns (s : State) (turns : List Agent) :
    hostReady { s with turns := turns } = hostReady s := rfl

theorem controllerReady_none {s : State} (h : s.command = none) : controllerReady s = false := by
  simp [controllerReady, h]

theorem controllerReady_some {s : State} {d : Decoded} (h : s.command = some d) : controllerReady s = true := by
  simp [controllerReady, h]

/-! ### The draw of a contested turn -/

theorem nextTurn_cons {s : State} {t : Agent} {rest : List Agent} (h : s.turns = t :: rest) : nextTurn s = t := by
  simp [nextTurn, h]

theorem dropTurn_cons {s : State} {t : Agent} {rest : List Agent} (h : s.turns = t :: rest) :
    dropTurn s = { s with turns := rest } := by
  simp [dropTurn, h]

theorem dropTurn_nil {s : State} (h : s.turns = []) : dropTurn s = { s with freeTurns := s.freeTurns + 1 } := by
  simp [dropTurn, h]

/-! ### The move of each agent -/

theorem hostMove_cons {s : State} {a : HostAction} {rest : List HostAction} (h : s.host = a :: rest) :
    hostMove s = hostAct a { s with host := rest } := by
  simp [hostMove, h]

/-- R17: the CONTROLLER's transition with a decoded command held is `exec` of it. -/
theorem controllerAct_command {s : State} {i : Instr} (h : s.command = some (.command i)) :
    controllerAct s = exec i s := by
  simp [controllerAct, h]

/-! ### The step, case by case -/

theorem step_idle {s : State} (hh : hostReady s = false) (hc : s.command = none) : step s = .next s := by
  simp [step, move, hh, controllerReady_none hc]

theorem step_host {s : State} (hh : hostReady s = true) (hc : s.command = none) : step s = hostMove s := by
  simp [step, move, hh, controllerReady_none hc]

theorem step_controller {s : State} {d : Decoded} (hh : hostReady s = false) (hc : s.command = some d) :
    step s = controllerAct s := by
  simp [step, move, hh, controllerReady_some hc]

theorem step_contested_host {s : State} {d : Decoded} (hh : hostReady s = true) (hc : s.command = some d)
    (ht : nextTurn s = .host) : step s = hostMove (dropTurn s) := by
  simp [step, move, hh, controllerReady_some hc, ht]

theorem step_contested_controller {s : State} {d : Decoded} (hh : hostReady s = true) (hc : s.command = some d)
    (ht : nextTurn s = .controller) : step s = controllerAct (dropTurn s) := by
  simp [step, move, hh, controllerReady_some hc, ht]

/-- A contested moment whose listed turn is the CONTROLLER's runs the held command. -/
theorem step_contested_exec {s : State} {i : Instr} {rest : List Agent} (hh : hostReady s = true)
    (hc : s.command = some (.command i)) (ht : s.turns = .controller :: rest) :
    step s = exec i { s with turns := rest } := by
  rw [step_contested_controller hh hc (nextTurn_cons ht), dropTurn_cons ht]
  exact controllerAct_command hc

/-- With no access of the HOST to make, a presented word is just accepted. -/
theorem presented_uncontested {v : Word} {s : State} (hh : hostReady (accept v s) = false) :
    presented v s = accept v s := by
  simp [presented, hh]

/-- With an access of the HOST to make, a presented word also has the next turn given to the CONTROLLER. -/
theorem presented_contested {v : Word} {s : State} (hh : hostReady (accept v s) = true) :
    presented v s = { accept v s with turns := .controller :: s.turns } := by
  simp [presented, hh]

/-- The very next step runs a presented command word, whether or not the HOST has an access to make. -/
theorem step_presented {v : Word} {i : Instr} (s : State) (h : decode v = .command i) :
    step (presented v s) = exec i (accept v s) := by
  have hc : (accept v s).command = some (.command i) := by rw [accept_command, h]
  cases hh : hostReady (accept v s) with
  | false => rw [presented_uncontested hh, step_controller hh hc, controllerAct_command hc]
  | true =>
    rw [presented_contested hh]
    exact step_contested_exec (by rw [hostReady_setTurns, hh]) hc rfl

/-! ### The statements -/

/-- Settles O7: each clause names one case of `move`. -/
theorem stepMovesOneAgent : Obligations.StepMovesOneAgent := by
  intro s
  refine ⟨?idle, ?hostAlone, ?hostDone, ?hostWaits, ?hostTurn, ?controllerTurn, ?freeTurn⟩
  case idle =>
    intro hc hl
    exact step_idle (hostReady_nil hl) hc
  case hostAlone =>
    intro a rest hc hb hl
    have hh : hostReady s = true := by simp [hostReady_cons hl, hb]
    rw [step_host hh hc, hostMove_cons hl]
  case hostDone =>
    intro d hc hl
    exact step_controller (hostReady_nil hl) hc
  case hostWaits =>
    intro d rest hc hb hl
    have hh : hostReady s = false := by simp [hostReady_cons hl, hb]
    exact step_controller hh hc
  case hostTurn =>
    intro d a rest more hc hl ha ht
    rw [step_contested_host (hostReady_of_ne_wait hl ha) hc (nextTurn_cons ht), dropTurn_cons ht]
    exact hostMove_cons hl
  case controllerTurn =>
    intro d a rest more hc hl ha ht
    rw [step_contested_controller (hostReady_of_ne_wait hl ha) hc (nextTurn_cons ht), dropTurn_cons ht]
  case freeTurn =>
    intro d a rest hc hl ha ht
    have hh := hostReady_of_ne_wait hl ha
    cases hn : nextTurn s with
    | host =>
      left
      rw [step_contested_host hh hc hn, dropTurn_nil ht]
      exact hostMove_cons hl
    | controller =>
      right
      rw [step_contested_controller hh hc hn, dropTurn_nil ht]

/-- Settles O6: the held command alone, at a contested moment, and placed by `withFetchWord`. -/
theorem stepRunsDecodedCommand : Obligations.StepRunsDecodedCommand := by
  refine ⟨?alone, ?contested, ?placed⟩
  case alone =>
    intro s i hc hh
    rw [step_controller hh hc, controllerAct_command hc]
  case contested =>
    intro s i rest hc hh ht
    exact step_contested_exec hh hc ht
  case placed =>
    intro s nbits w i h
    rw [State.withFetchWord, step_presented s h, accept, h]

end Sys2Proof.Machine
end

section
/-! PROOFS. What a step can make of the state, said once as an inductive, and what each command's effect keeps: the layer
under the statements about invariants, frames and isolation. -/

namespace Sys2Proof.Machine

/-! ### The state with the agents' lists moved on -/

/-- `s` with the HOST's list and the turns moved on: every field of the LFBC is that of `s` (log entries 2, 3). -/
def State.scheduled (s : State) (host : List HostAction) (turns : List Agent) (freeTurns : Nat) : State :=
  { s with host := host, turns := turns, freeTurns := freeTurns }

section Scheduled

variable (s : State) (host : List HostAction) (turns : List Agent) (n : Nat)

@[simp] theorem scheduled_fb : (s.scheduled host turns n).fb = s.fb := rfl
@[simp] theorem scheduled_inited : (s.scheduled host turns n).inited = s.inited := rfl
@[simp] theorem scheduled_busy : (s.scheduled host turns n).busy = s.busy := rfl
@[simp] theorem scheduled_pixel : (s.scheduled host turns n).pixel = s.pixel := rfl
@[simp] theorem scheduled_err : (s.scheduled host turns n).err = s.err := rfl
@[simp] theorem scheduled_ovr : (s.scheduled host turns n).ovr = s.ovr := rfl
@[simp] theorem scheduled_fault : (s.scheduled host turns n).fault = s.fault := rfl
@[simp] theorem scheduled_command : (s.scheduled host turns n).command = s.command := rfl
@[simp] theorem scheduled_trace : (s.scheduled host turns n).trace = s.trace := rfl

theorem scheduled_self : s.scheduled s.host s.turns s.freeTurns = s := rfl

theorem dropTurn_eq_scheduled :
    dropTurn s = s.scheduled s.host (dropTurn s).turns (dropTurn s).freeTurns := by
  unfold dropTurn
  split <;> rfl

end Scheduled

/-! ### What a step can do -/

/-- What a step makes of `s`, with `s'` for `s` when the HOST's list and the turns have moved on. -/
inductive Transition (s s' : State) : State → Prop
  /-- Nothing to do, or a STATUS write, which is ignored (R53). -/
  | kept : Transition s s' s'
  /-- A CMD read (R28, R53). -/
  | delivered (v : Word) : Transition s s' (deliver v s')
  /-- A STATUS read (R53). -/
  | statusRead : Transition s s' (readStatus s')
  /-- A CMD write while BUSY = 0 (R52). -/
  | accepted (v : Word) (idle : s.busy = false) : Transition s s' (accept v s')
  /-- A CMD write while BUSY = 1 (R52, R205). -/
  | overran (v : Word) (rest : List HostAction) (busy : s.busy = true)
      (write : s.host = .write cmdOffset 4 v :: rest) : Transition s s' (overrun s')
  /-- The held word completes with an error and no effect: ILLEGAL or NOT_INIT (R203, R204). -/
  | raised (c : Code) (error : c ≠ .ok) : Transition s s' (complete c s')
  /-- The held command passes the gate, takes effect and completes (R90). -/
  | performed (i : Instr) (held : s.command = some (.command i)) (gate : i = .init ∨ s.inited = true) :
      Transition s s' (complete (effect i s').1 (effect i s').2)

/-- A HOST action is a transition. -/
theorem hostAct_transition {s t : State} {a : HostAction} {rest : List HostAction} {turns : List Agent} {n : Nat}
    (hl : s.host = a :: rest) (h : hostAct a (s.scheduled rest turns n) = .next t) :
    Transition s (s.scheduled rest turns n) t := by
  rcases hostAct_cases h with ⟨v, rfl, hb, rfl⟩ | ⟨v, rfl, hb, rfl⟩ | ⟨v, rfl⟩ | rfl | rfl
  · exact .overran v rest hb hl
  · exact .accepted v hb
  · exact .delivered v
  · exact .statusRead
  · exact .kept

/-- The CONTROLLER's move is a transition. -/
theorem controllerAct_transition {s t : State} {host : List HostAction} {turns : List Agent} {n : Nat}
    (h : controllerAct (s.scheduled host turns n) = .next t) : Transition s (s.scheduled host turns n) t := by
  rcases controllerAct_cases h with ⟨-, rfl⟩ | ⟨why, -, rfl⟩ | ⟨i, -, -, -, rfl⟩ | ⟨i, hc, hg, rfl⟩
  · exact .kept
  · exact .raised _ (by decide)
  · exact .raised _ (by decide)
  · exact .performed i hc hg

/-- Every step that answers a next state is a transition. -/
theorem step_transition {s t : State} (h : step s = .next t) :
    ∃ host turns n, Transition s (s.scheduled host turns n) t := by
  have rescheduled : ∀ s' : State, s' = s ∨ s' = dropTurn s →
      ∃ turns n, s' = s.scheduled s.host turns n := by
    rintro s' (rfl | rfl)
    · exact ⟨_, _, (scheduled_self _).symm⟩
    · exact ⟨_, _, dropTurn_eq_scheduled s⟩
  rcases step_cases h with ⟨ht, -⟩ | ⟨s', hs, ht, -⟩ | ⟨s', a, rest, hs, hl, ht, -⟩
  · cases ht
    exact ⟨s.host, s.turns, s.freeTurns, .kept⟩
  · obtain ⟨turns, n, rfl⟩ := rescheduled s' hs
    exact ⟨_, _, _, controllerAct_transition ht.symm⟩
  · obtain ⟨turns, n, rfl⟩ := rescheduled s' hs
    exact ⟨rest, turns, n, hostAct_transition hl ht.symm⟩

/-! ### What a command's effect keeps -/

@[simp] theorem effect_ovr (i : Instr) (s : State) : (effect i s).2.ovr = s.ovr := by
  obtain ⟨r, v, h, -⟩ := effect_frame i s
  rw [h]
  rfl

@[simp] theorem effect_fault (i : Instr) (s : State) : (effect i s).2.fault = s.fault := by
  obtain ⟨r, v, h, -⟩ := effect_frame i s
  rw [h]
  rfl

/-- No effect clears INITED (R25, R192). -/
theorem effect_inited {i : Instr} {s : State} (hs : s.inited = true) : (effect i s).2.inited = true := by
  obtain ⟨r, v, -, -, -, h, -⟩ := effect_frame i s
  exact h hs

/-- An effect leaves no session open (R37, R64). -/
theorem effect_session {i : Instr} {s : State} (hs : s.session = false) : (effect i s).2.session = false := by
  obtain ⟨r, v, h, silent, driven, -⟩ := effect_frame i s
  have hv : v = false := by
    cases hd : drivesTransport i with
    | false => rw [(silent hd).2.1, hs]
    | true => exact (driven hd).1
  rw [h]
  exact hv

/-- The transport run of an effect: the events it adds (R63, R190), and that only INIT's acknowledged run sets INITED (R192). -/
theorem effect_trace (i : Instr) (s : State) :
    ∃ r : TransportRun, (effect i s).2.trace = s.trace ++ r.events ∧
      (r.events = [] ∨ r = sessionsRun s.answerAt Config.addrW initCommands ∨
        ∃ bytes, r = sessionRun s.answerAt Config.addrW bytes) ∧
      ((effect i s).2.inited = true → s.inited = true ∨
        (r = sessionsRun s.answerAt Config.addrW initCommands ∧ r.answer = .ack)) := by
  obtain ⟨r, v, h, silent, driven, -, hi⟩ := effect_frame i s
  refine ⟨r, congrArg State.trace h, ?_, hi⟩
  cases hd : drivesTransport i with
  | false => exact Or.inl (by rw [(silent hd).1])
  | true => exact Or.inr (driven hd).2.2

/-! ### The shape of a run's events -/

theorem scan_append (xs ys : List Event) (p : Phase) : p.scan (xs ++ ys) = (p.scan xs).bind (·.scan ys) := by
  induction xs generalizing p with
  | nil => rfl
  | cons e xs ih =>
    simp only [List.cons_append, Phase.scan]
    cases p.next e with
    | none => rfl
    | some q => exact ih q

theorem wellBracketed_nil : WellBracketed [] := rfl

theorem WellBracketed.append {xs ys : List Event} (hx : WellBracketed xs) (hy : WellBracketed ys) :
    WellBracketed (xs ++ ys) := by
  unfold WellBracketed at *
  rw [scan_append, hx]
  exact hy

/-- A run of WRITEs in a live session leaves it in the phase of its answer (R63). -/
theorem scan_writeRun (bytes : List Byte) (f : Nat → Answer) :
    Phase.live.scan (writeRun f bytes).events = some (Phase.after (writeRun f bytes).answer) := by
  induction bytes generalizing f with
  | nil => rfl
  | cons b rest ih =>
    rw [writeRun]
    cases f 0 with
    | ack => exact ih _
    | timeout => rfl

/-- A session to ADDR_W is closed, whatever its answers (R61, R63, R64). -/
theorem wellBracketed_sessionRun (f : Nat → Answer) (bytes : List Byte) :
    WellBracketed (sessionRun f Config.addrW bytes).events := by
  unfold WellBracketed
  rw [sessionRun]
  cases f 0 with
  | timeout => simp [unopenedSession, Phase.scan, Phase.next, Phase.after]
  | ack =>
    simp only [List.cons_append, Phase.scan, Phase.next, Phase.after, if_true, scan_append, scan_writeRun,
      Option.bind_some]
    cases (writeRun _ bytes).answer <;> rfl

/-- A row of sessions to ADDR_W neither nests nor interleaves (R65, R190). -/
theorem wellBracketed_sessionsRun (bytes : List Byte) (f : Nat → Answer) :
    WellBracketed (sessionsRun f Config.addrW bytes).events := by
  induction bytes generalizing f with
  | nil => exact wellBracketed_nil
  | cons b rest ih =>
    have first := wellBracketed_sessionRun f [b]
    rw [sessionsRun]
    cases (sessionRun f Config.addrW [b]).answer with
    | ack => exact first.append (ih _)
    | timeout => exact first

theorem effect_wellBracketed {i : Instr} {s : State} (hs : WellBracketed s.trace) :
    WellBracketed (effect i s).2.trace := by
  obtain ⟨r, ht, hr, -⟩ := effect_trace i s
  rw [ht]
  refine hs.append ?_
  rcases hr with hr | rfl | ⟨bytes, rfl⟩
  · rw [hr]
    exact wellBracketed_nil
  · exact wellBracketed_sessionsRun _ _
  · exact wellBracketed_sessionRun _ _

/-! ### The events of an acknowledged run -/

theorem writeRun_events_of_ack {bytes : List Byte} {f : Nat → Answer} (h : (writeRun f bytes).answer = .ack) :
    (writeRun f bytes).events = bytes.map fun b => .wrote b .ack := by
  induction bytes generalizing f with
  | nil => rfl
  | cons b rest ih =>
    cases h0 : f 0 with
    | ack =>
      simp only [writeRun, h0] at h ⊢
      rw [ih h]
      rfl
    | timeout => simp [writeRun, h0] at h

theorem sessionRun_events_of_ack {a : Byte} {bytes : List Byte} {f : Nat → Answer}
    (h : (sessionRun f a bytes).answer = .ack) : (sessionRun f a bytes).events = ackedSession a bytes := by
  cases h0 : f 0 with
  | ack =>
    simp only [sessionRun, h0] at h ⊢
    rw [writeRun_events_of_ack h]
    rfl
  | timeout => simp [sessionRun, h0] at h

theorem sessionsRun_events_of_ack {a : Byte} {bytes : List Byte} {f : Nat → Answer}
    (h : (sessionsRun f a bytes).answer = .ack) :
    (sessionsRun f a bytes).events = bytes.flatMap fun b => ackedSession a [b] := by
  induction bytes generalizing f with
  | nil => rfl
  | cons b rest ih =>
    cases hb : (sessionRun f a [b]).answer with
    | ack =>
      simp only [sessionsRun, hb] at h ⊢
      rw [sessionRun_events_of_ack hb, ih h]
      rfl
    | timeout => simp [sessionsRun, hb] at h

/-- An INIT whose answers are all ACK adds `initTrace` (R190). -/
theorem initRun_events_of_ack {f : Nat → Answer} (h : (sessionsRun f Config.addrW initCommands).answer = .ack) :
    (sessionsRun f Config.addrW initCommands).events = initTrace := by
  rw [sessionsRun_events_of_ack h]
  simp [initCommands, initTrace]

/-! ### Runs of several steps -/

theorem run_of_step_next {M : Host.Core} {s t : M.State} (h : M.step s = .next t) (n : Nat) :
    M.run (n + 1) s = M.run n t := by
  rw [Host.Core.run, h]

theorem run_of_step_fault {M : Host.Core} {s : M.State} {r : M.Fault} (h : M.step s = .fault r) (n : Nat) :
    M.run (n + 1) s = .fault r := by
  rw [Host.Core.run, h]

/-- A run that answers a next state does so by its first step and the run from there. -/
theorem run_succ_eq_next {M : Host.Core} {s t : M.State} {n : Nat} (h : M.run (n + 1) s = .next t) :
    ∃ u, M.step s = .next u ∧ M.run n u = .next t := by
  rw [Host.Core.run] at h
  split at h
  · next u hu => exact ⟨u, hu, h⟩
  · cases h
  · cases h

/-- What every step keeps, every run keeps. -/
theorem run_keeps {P : State → Prop} (keep : ∀ s t, P s → step s = .next t → P t) (n : Nat) {s t : State}
    (hs : P s) (h : core.run n s = .next t) : P t := by
  induction n generalizing s with
  | zero => cases h; exact hs
  | succ n ih =>
    obtain ⟨u, hu, hrun⟩ := run_succ_eq_next h
    exact ih (keep s u hs hu) hrun

end Sys2Proof.Machine
end

section
/-! PROOFS. The statements on the state: the invariants, the sticky flags, the frames of the commands, who writes PIXEL and the
frame buffer, the STATUS word, and the state after reset. -/

namespace Sys2Proof.Machine

/-! ### The invariant, operation by operation -/

theorem inv_scheduled {s : State} (h : s.Inv) (host : List HostAction) (turns : List Agent) (n : Nat) :
    (s.scheduled host turns n).Inv :=
  ⟨h.busy_iff, h.no_session, h.err_fault, h.ovr_fault, h.bracketed, h.read_idle⟩

theorem inv_deliver {s : State} (h : s.Inv) (v : Word) : (deliver v s).Inv :=
  ⟨h.busy_iff, h.no_session, h.err_fault, h.ovr_fault, h.bracketed, h.read_idle⟩

theorem inv_readStatus {s : State} (h : s.Inv) : (readStatus s).Inv :=
  ⟨h.busy_iff, h.no_session, h.err_fault, h.ovr_fault, h.bracketed,
    fun hr => (afterStatusRead_eq_readBack hr).elim id h.read_idle⟩

theorem inv_accept {s : State} (h : s.Inv) (v : Word) : (accept v s).Inv :=
  ⟨rfl, h.no_session, h.err_fault, h.ovr_fault, h.bracketed, nofun⟩

theorem inv_overrun {s : State} (h : s.Inv) : (overrun s).Inv :=
  ⟨h.busy_iff, h.no_session, fun _ => rfl, fun _ => rfl, h.bracketed, nofun⟩

/-- R201: a completion needs only what it does not write itself. -/
theorem inv_complete {s : State} (c : Code) (session : s.session = false) (ovr : s.ovr = true → s.fault = true)
    (bracketed : WellBracketed s.trace) : (complete c s).Inv where
  busy_iff := rfl
  no_session := session
  err_fault hc := if_neg hc
  ovr_fault ho := by
    rw [complete_fault, ovr ho]
    exact ite_self true
  bracketed := bracketed
  read_idle _ := rfl

theorem inv_complete_effect {s : State} (h : s.Inv) (i : Instr) :
    (complete (effect i s).1 (effect i s).2).Inv :=
  inv_complete _ (effect_session h.no_session) (by simpa using h.ovr_fault) (effect_wellBracketed h.bracketed)

/-- Settles O52: the invariant, by what a step can do. -/
theorem stepKeepsInvariant : Obligations.StepKeepsInvariant := by
  intro s t hs h
  obtain ⟨host, turns, n, htr⟩ := step_transition h
  have hs' := inv_scheduled hs host turns n
  cases htr with
  | kept => exact hs'
  | delivered v => exact inv_deliver hs' v
  | statusRead => exact inv_readStatus hs'
  | accepted v => exact inv_accept hs' v
  | overran => exact inv_overrun hs'
  | raised c => exact inv_complete c hs'.no_session hs'.ovr_fault hs'.bracketed
  | performed i => exact inv_complete_effect hs' i

/-! ### INITED and the INIT in the trace -/

/-- Only INIT's acknowledged run sets INITED, and the events of that run are the evidence (R25, R192). -/
theorem initEvidence_effect {s : State} (hs : s.InitEvidence) (i : Instr) : (effect i s).2.InitEvidence := by
  intro hi
  obtain ⟨r, ht, -, cause⟩ := effect_trace i s
  rw [ht]
  rcases cause hi with before | ⟨rfl, hack⟩
  · exact (hs before).trans (List.prefix_append _ _).isInfix
  · rw [initRun_events_of_ack hack]
    exact (List.suffix_append _ _).isInfix

/-- Settles O54: the trace only grows, and INITED rises only with INIT's trace. -/
theorem stepKeepsInitEvidence : Obligations.StepKeepsInitEvidence := by
  intro s t hs h
  obtain ⟨host, turns, n, htr⟩ := step_transition h
  have hs' : (s.scheduled host turns n).InitEvidence := hs
  cases htr with
  | performed i => exact initEvidence_effect hs' i
  | _ => exact hs

/-! ### The sticky flags and runs without errors -/

theorem step_fault {s t : State} (h : step s = .next t) (hf : s.fault = true) : t.fault = true := by
  obtain ⟨host, turns, n, htr⟩ := step_transition h
  cases htr with
  | overran => rfl
  | raised | performed => simp [hf]
  | _ => exact hf

theorem step_inited {s t : State} (h : step s = .next t) (hi : s.inited = true) : t.inited = true := by
  obtain ⟨host, turns, n, htr⟩ := step_transition h
  cases htr with
  | performed i => exact effect_inited hi
  | _ => exact hi

/-- R34: OVR is kept, or set by a CMD write while BUSY = 1, which sets FAULT too. -/
theorem step_ovr {s t : State} (h : step s = .next t) :
    t.ovr = s.ovr ∨ (t.ovr = true ∧ t.fault = true ∧ s.busy = true ∧ ∃ v rest, s.host = .write cmdOffset 4 v :: rest) := by
  obtain ⟨host, turns, n, htr⟩ := step_transition h
  cases htr with
  | overran v rest hb hw => exact Or.inr ⟨rfl, rfl, hb, v, rest, hw⟩
  | performed i => exact Or.inl (effect_ovr i _)
  | _ => exact Or.inl rfl

/-- Settles O55: `step_ovr`, `step_fault` and `step_inited` together. -/
theorem stickyFlags : Obligations.StickyFlags := by
  intro s t h
  refine ⟨?kept, step_fault h, step_inited h, ?cause⟩
  case kept =>
    intro ho
    rcases step_ovr h with hk | ⟨hk, -⟩
    · rw [hk, ho]
    · exact hk
  case cause =>
    intro ho ht
    rcases step_ovr h with hk | ⟨-, hf, hb, v, rest, hw⟩
    · rw [hk, ho] at ht
      cases ht
    · exact ⟨hb, v, rest, hw, hf⟩

theorem step_not_safe {s t : State} (h : step s = .next t) (hs : ¬ s.Safe) : ¬ t.Safe := by
  unfold State.Safe at *
  rw [Bool.not_eq_false] at *
  exact step_fault h hs

/-- In a state that meets the invariant and shows FAULT = 0, no error and no overrun shows (R35). -/
theorem State.Safe.no_error {t : State} (hs : t.Safe) (hi : t.Inv) : t.err = .ok ∧ t.ovr = false := by
  have not_fault : ¬ t.fault = true := Bool.eq_false_iff.mp hs
  exact ⟨by_contra (mt hi.err_fault not_fault), Bool.eq_false_iff.mpr (mt hi.ovr_fault not_fault)⟩

/-- Settles O56: an error before the run's end, and the invariant, are kept along the run. -/
theorem safeEndMeansNoError : Obligations.SafeEndMeansNoError := by
  intro n s t hrun hsafe
  refine ⟨?start, fun hi => hsafe.no_error (run_keeps stepKeepsInvariant n hi hrun)⟩
  case start =>
    by_contra hs
    exact run_keeps (P := fun s => ¬ s.Safe) (fun _ _ hs h => step_not_safe h hs) n hs hrun hsafe

/-! ### Who writes PIXEL and the frame buffer -/

/-- Settles O21: of all transitions only the effect of a GET_PIXEL writes PIXEL, and it ends with OK. -/
theorem pixelOnlyByGetPixel : Obligations.PixelOnlyByGetPixel := by
  intro s t h hne
  obtain ⟨host, turns, n, htr⟩ := step_transition h
  cases htr with
  | performed i held =>
    have hi : ∃ x y, i = .getPixel x y := by
      by_contra hno
      push Not at hno
      exact hne (effect_pixel hno _)
    obtain ⟨x, y, rfl⟩ := hi
    exact ⟨rfl, x, y, held⟩
  | _ => exact absurd rfl hne

/-- Settles O57: of all transitions only the effect of a listed command, past the gate, writes the frame buffer. -/
theorem frameBufferWriters : Obligations.FrameBufferWriters := by
  intro s t h hne
  obtain ⟨host, turns, n, htr⟩ := step_transition h
  cases htr with
  | performed i held gate =>
    have hw : writesFrameBuffer i = true := by
      by_contra hno
      exact hne (effect_fb (by simpa using hno) _)
    refine ⟨gate.resolve_left ?_, i, held, hw⟩
    rintro rfl
    cases hw
  | _ => exact absurd rfl hne

/-! ### Frames -/

/-- A command completes with NOT_INIT and no effect, or with its effect. -/
theorem exec_next {i : Instr} {s t : State} (h : exec i s = .next t) :
    t = complete .notInit s ∨ t = complete (effect i s).1 (effect i s).2 := by
  rw [exec_eq] at h
  split at h
  · cases h; exact Or.inr rfl
  · cases h; exact Or.inl rfl

/-- The effect of a command that drives no transport (R39). -/
theorem effect_silent {i : Instr} (hd : drivesTransport i = false) (s : State) :
    (effect i s).2 = { s with fb := (effect i s).2.fb, pixel := (effect i s).2.pixel } := by
  cases i with
  | init | flush | drawArrow | drawCheckmark => cases hd
  | _ => rfl

theorem effect_flush (s : State) :
    (effect .flush s).2 = { s with
      trace := (effect .flush s).2.trace, answers := (effect .flush s).2.answers
      freeAnswers := (effect .flush s).2.freeAnswers, session := (effect .flush s).2.session } := by
  simp only [effect, flushFrame_spec]
  rfl

/-- A glyph's effect: FLUSH's frame and the frame buffer (R39). -/
theorem effect_glyph {i : Instr} (hw : writesFrameBuffer i = true) (hd : drivesTransport i = true) (s : State) :
    (effect i s).2 = { s with
      fb := (effect i s).2.fb
      trace := (effect i s).2.trace, answers := (effect i s).2.answers
      freeAnswers := (effect i s).2.freeAnswers, session := (effect i s).2.session } := by
  cases i with
  | drawArrow | drawCheckmark =>
    simp only [effect, paintAndFlush_spec]
    rfl
  | init | flush => cases hw
  | _ => cases hd

/-- Settles O17: the effect, and that it keeps PIXEL or the frame buffer. -/
theorem frameOfSilentCommands : Obligations.FrameOfSilentCommands := by
  intro s t i hd h
  rcases exec_next h with rfl | rfl
  · exact ⟨fun _ => rfl, fun _ => rfl⟩
  constructor
  · intro hw
    have hp : (effect i s).2.pixel = s.pixel := effect_pixel (by rintro x y rfl; cases hw) s
    rw [effect_silent hd, hp]
    rfl
  · intro hw
    rw [effect_silent hd, effect_fb hw]
    rfl

/-- Settles O18, from FLUSH's effect. -/
theorem frameOfFlush : Obligations.FrameOfFlush := by
  intro s t h
  rcases exec_next h with rfl | rfl
  · rfl
  · rw [effect_flush]
    rfl

/-- Settles O19, from the effect of a glyph. -/
theorem frameOfGlyphs : Obligations.FrameOfGlyphs := by
  intro s t i hw hd h
  rcases exec_next h with rfl | rfl
  · rfl
  · rw [effect_glyph hw hd]
    rfl

/-! ### The STATUS word -/

/-- Two fields side by side, as a number. -/
theorem toNat_append_eq {m n : Nat} (x : BitVec m) (y : BitVec n) : (x ++ y).toNat = 2 ^ n * x.toNat + y.toNat := by
  rw [BitVec.toNat_append, ← Nat.shiftLeft_add_eq_or_of_lt y.isLt, Nat.shiftLeft_eq, Nat.mul_comm]

/-- The STATUS word as a number: each field at the weight of its lowest bit (R29). -/
theorem status_toNat (s : State) :
    s.status.toNat = s.busy.toNat + 2 ^ 1 * s.inited.toNat + 2 ^ 2 * s.pixel.toNat + 2 ^ 4 * s.err.bits.toNat
      + 2 ^ 8 * s.ovr.toNat + 2 ^ 9 * s.fault.toNat := by
  refine (toNat_append_eq 0#22 _).trans ?_
  simp only [toNat_append_eq, BitVec.toNat_ofBool, BitVec.toNat_ofNat]
  omega

theorem Code.bits_toNat_lt (c : Code) : c.bits.toNat < 4 := by
  cases c <;> decide

theorem status_bit {s : State} {k : Nat} {b : Bool} (h : s.status.toNat / 2 ^ k % 2 = b.toNat) :
    s.status.getLsbD k = b := by
  rw [BitVec.getLsbD, Nat.testBit_eq_decide_div_mod_eq, h]
  cases b <;> rfl

/-- Settles O11: each field is a digit of `status_toNat`, and above bit 9 nothing is left. -/
theorem statusWordFields : Obligations.StatusWordFields := by
  intro s
  have value := status_toNat s
  have busy := s.busy.toNat_lt
  have inited := s.inited.toNat_lt
  have pixel := s.pixel.toNat_lt
  have err := s.err.bits_toNat_lt
  have ovr := s.ovr.toNat_lt
  have fault := s.fault.toNat_lt
  refine ⟨status_bit (by omega), status_bit (by omega), status_bit (by omega), ?_, status_bit (by omega),
    status_bit (by omega), ?_⟩
  · trans s.err.bits.toNat
    · omega
    · cases s.err <;> rfl
  · rintro k (rfl | rfl | hk)
    · exact status_bit (by rw [Bool.toNat_false]; omega)
    · exact status_bit (by rw [Bool.toNat_false]; omega)
    · have : 2 ^ 10 ≤ 2 ^ k := Nat.pow_le_pow_right (by decide) hk
      exact status_bit (by rw [Nat.div_eq_of_lt (by omega)]; rfl)

/-! ### The state after reset -/

/-- Settles O12: the fields by evaluation, and the write as the HOST's uncontested move. -/
theorem resetStateIsBlank : Obligations.ResetStateIsBlank := by
  refine ⟨by decide, rfl, rfl, rfl, rfl, rfl, rfl, rfl, rfl, rfl, by decide, fun v rest => ?_⟩
  rw [step_host rfl rfl, hostMove_cons rfl]
  rfl

/-- Settles O53: at reset no flag is set, nothing is held and the trace is empty. -/
theorem resetMeetsInvariants : Obligations.ResetMeetsInvariants where
  left :=
    { busy_iff := rfl
      no_session := rfl
      err_fault := fun h => absurd rfl h
      ovr_fault := nofun
      bracketed := wellBracketed_nil
      read_idle := nofun }
  right := nofun

end Sys2Proof.Machine
end

section
/-! PROOFS. Isolation of the frame buffer (R23): two states that differ only in it, run side by side. -/

namespace Sys2Proof.Machine

/-- `s` with another frame buffer. -/
def State.withFb (s : State) (f : FrameBuffer) : State := { s with fb := f }

@[simp] theorem withFb_inited (s : State) (f : FrameBuffer) : (s.withFb f).inited = s.inited := rfl
@[simp] theorem withFb_busy (s : State) (f : FrameBuffer) : (s.withFb f).busy = s.busy := rfl
@[simp] theorem withFb_command (s : State) (f : FrameBuffer) : (s.withFb f).command = s.command := rfl
@[simp] theorem withFb_host (s : State) (f : FrameBuffer) : (s.withFb f).host = s.host := rfl
@[simp] theorem hostReady_withFb (s : State) (f : FrameBuffer) : hostReady (s.withFb f) = hostReady s := rfl
@[simp] theorem nextTurn_withFb (s : State) (f : FrameBuffer) : nextTurn (s.withFb f) = nextTurn s := rfl

/-- The draw of a turn looks at the turns only. -/
@[simp] theorem dropTurn_withFb (s : State) (f : FrameBuffer) : dropTurn (s.withFb f) = (dropTurn s).withFb f := by
  cases ht : s.turns with
  | nil =>
    have ht' : (s.withFb f).turns = [] := ht
    rw [dropTurn_nil ht, dropTurn_nil ht']
    rfl
  | cons a rest =>
    have ht' : (s.withFb f).turns = a :: rest := ht
    rw [dropTurn_cons ht, dropTurn_cons ht']
    rfl

/-- Two outcomes that agree in everything but the frame buffer: the same fault, or next states that differ only in it. -/
inductive AgreeButFb : Host.Outcome State Fault Refusal → Host.Outcome State Fault Refusal → Prop
  | next (t : State) (g : FrameBuffer) : AgreeButFb (.next t) (.next (t.withFb g))
  | fault (r : Fault) : AgreeButFb (.fault r) (.fault r)

/-- A CMD write looks at BUSY only (R52). -/
theorem writeCmd_withFb (v : Word) (s : State) (f : FrameBuffer) :
    writeCmd v (s.withFb f) = (writeCmd v s).withFb f := by
  unfold writeCmd
  rw [withFb_busy]
  split <;> rfl

/-- The HOST reads STATUS and CMD only, neither of which holds a pixel (R23, R29). -/
theorem hostAct_agree (a : HostAction) (s : State) (f : FrameBuffer) :
    AgreeButFb (hostAct a s) (hostAct a (s.withFb f)) := by
  cases a with
  | wait => exact .next _ f
  | read offset width =>
    simp only [hostAct]
    split_ifs
    · exact .next _ f
    · exact .next _ f
    · exact .fault _
  | write offset width v =>
    simp only [hostAct, writeCmd_withFb]
    split_ifs
    · exact .next _ f
    · exact .next _ f
    · exact .fault _

/-- A command that does not show the frame buffer has the same effect from both states, but for the frame buffer. -/
theorem effect_agree {i : Instr} (hi : showsFrameBuffer i = false) (s : State) (f : FrameBuffer) :
    ∃ g, effect i (s.withFb f) = ((effect i s).1, (effect i s).2.withFb g) := by
  cases i with
  | init =>
    refine ⟨f, ?_⟩
    simp only [effect, initSequence_spec]
    rfl
  | getPixel | flush | drawArrow | drawCheckmark => cases hi
  | _ => exact ⟨_, rfl⟩

theorem exec_agree {i : Instr} (hi : showsFrameBuffer i = false) (s : State) (f : FrameBuffer) :
    AgreeButFb (exec i s) (exec i (s.withFb f)) := by
  rw [exec_eq, exec_eq, withFb_inited]
  split
  · obtain ⟨g, hg⟩ := effect_agree hi s f
    rw [hg]
    exact .next _ g
  · exact .next _ f

theorem controllerAct_agree {s : State} (hs : ∀ i, s.command = some (.command i) → showsFrameBuffer i = false)
    (f : FrameBuffer) : AgreeButFb (controllerAct s) (controllerAct (s.withFb f)) := by
  unfold controllerAct
  rw [withFb_command]
  split
  · next i hc => exact exec_agree (hs i hc) s f
  · exact .next _ f
  · exact .next _ f

theorem hostMove_agree (s : State) (f : FrameBuffer) : AgreeButFb (hostMove s) (hostMove (s.withFb f)) := by
  unfold hostMove
  rw [withFb_host]
  split
  · next a rest _ => exact hostAct_agree a { s with host := rest } f
  · exact .next _ f

theorem step_agree {s : State} (hs : ∀ i, s.command = some (.command i) → showsFrameBuffer i = false)
    (f : FrameBuffer) : AgreeButFb (step s) (step (s.withFb f)) := by
  have ready := hostReady_withFb s f
  have command := withFb_command s f
  have turn := nextTurn_withFb s f
  cases hh : hostReady s with
  | false =>
    cases hc : s.command with
    | none =>
      rw [step_idle hh hc, step_idle (ready.trans hh) (command.trans hc)]
      exact .next _ f
    | some d =>
      rw [step_controller hh hc, step_controller (ready.trans hh) (command.trans hc)]
      exact controllerAct_agree hs f
  | true =>
    cases hc : s.command with
    | none =>
      rw [step_host hh hc, step_host (ready.trans hh) (command.trans hc)]
      exact hostMove_agree s f
    | some d =>
      cases ht : nextTurn s with
      | host =>
        rw [step_contested_host hh hc ht,
          step_contested_host (ready.trans hh) (command.trans hc) (turn.trans ht), dropTurn_withFb]
        exact hostMove_agree _ f
      | controller =>
        rw [step_contested_controller hh hc ht,
          step_contested_controller (ready.trans hh) (command.trans hc) (turn.trans ht), dropTurn_withFb]
        exact controllerAct_agree (by simpa using hs) f

/-- What agreement says of each outcome; no refusal agrees with anything. -/
theorem AgreeButFb.outcomes {o o' : Host.Outcome State Fault Refusal} (h : AgreeButFb o o') :
    (∀ t, o = .next t → ∃ u, o' = .next u ∧ u = { t with fb := u.fb }) ∧
    (∀ r, o = .fault r → o' = .fault r) ∧ ∀ r, o ≠ .refused r := by
  cases h with
  | next t g =>
    refine ⟨fun u hu => ?_, fun r hr => ?_, fun r hr => ?_⟩
    · cases hu
      exact ⟨_, rfl, rfl⟩
    · cases hr
    · cases hr
  | fault r =>
    refine ⟨fun t ht => ?_, fun _ h => h, fun r hr => ?_⟩
    · cases ht
    · cases hr

/-- Settles O58: the two steps agree in everything but the frame buffer. -/
theorem frameBufferIsHidden : Obligations.FrameBufferIsHidden := by
  intro s f hs
  exact (step_agree hs f).outcomes

end Sys2Proof.Machine
end

section
/-! PROOFS. BUSY falls (R30): the HOST can put the CONTROLLER's transition off only as long as it has accesses listed. -/

namespace Sys2Proof.Machine

/-- A HOST action answers a next state or is an unsupported access (R54). -/
theorem hostAct_next_or_fault (a : HostAction) (s : State) :
    (∃ t, hostAct a s = .next t) ∨ ∃ o w, hostAct a s = .fault (.badHostAccess o w) := by
  unfold hostAct
  split
  · split
    · exact Or.inl ⟨_, rfl⟩
    · split
      · exact Or.inl ⟨_, rfl⟩
      · exact Or.inr ⟨_, _, rfl⟩
  · split
    · exact Or.inl ⟨_, rfl⟩
    · split
      · exact Or.inl ⟨_, rfl⟩
      · exact Or.inr ⟨_, _, rfl⟩
  · exact Or.inl ⟨_, rfl⟩

/-- No HOST action lowers BUSY, and none but the list's head is taken. -/
theorem hostAct_busy_host {a : HostAction} {s t : State} (h : hostAct a s = .next t) (hb : s.busy = true) :
    t.busy = true ∧ t.host = s.host := by
  rcases hostAct_cases h with ⟨v, -, -, rfl⟩ | ⟨v, -, -, rfl⟩ | ⟨v, rfl⟩ | rfl | rfl
  · exact ⟨hb, rfl⟩
  · exact ⟨rfl, rfl⟩
  · exact ⟨hb, rfl⟩
  · exact ⟨hb, rfl⟩
  · exact ⟨hb, rfl⟩

/-- The CONTROLLER's transition completes the held word (R201). -/
theorem controllerAct_completes {s : State} {d : Decoded} (h : s.command = some d) :
    ∃ t, controllerAct s = .next t ∧ t.busy = false := by
  unfold controllerAct
  rw [h]
  cases d with
  | illegal why => exact ⟨_, rfl, rfl⟩
  | command i =>
    refine ⟨_, exec_eq i s, ?_⟩
    split <;> rfl

/-- While a command is held, a step completes it, or is an access of the HOST: one less to come, or unsupported. -/
theorem step_busy {s : State} (hi : s.Inv) (hb : s.busy = true) :
    (∃ t, step s = .next t ∧ t.busy = false) ∨ (∃ o w, step s = .fault (.badHostAccess o w)) ∨
    (∃ t, step s = .next t ∧ t.busy = true ∧ s.host.length = t.host.length + 1) := by
  obtain ⟨d, hc⟩ := Option.isSome_iff_exists.mp (hi.busy_iff ▸ hb)
  cases hh : hostReady s with
  | false =>
    rw [step_controller hh hc]
    exact Or.inl (controllerAct_completes hc)
  | true =>
    cases ht : nextTurn s with
    | controller =>
      rw [step_contested_controller hh hc ht]
      exact Or.inl (controllerAct_completes (by rwa [dropTurn_command]))
    | host =>
      rw [step_contested_host hh hc ht]
      cases hl : s.host with
      | nil => simp [hostReady_nil hl] at hh
      | cons a rest =>
        rw [hostMove_cons (by rwa [dropTurn_host])]
        rcases hostAct_next_or_fault a { dropTurn s with host := rest } with ⟨t, h⟩ | hf
        · obtain ⟨tb, th⟩ := hostAct_busy_host h (by simpa using hb)
          exact Or.inr (Or.inr ⟨t, h, tb, by rw [th, List.length_cons]⟩)
        · exact Or.inr (Or.inl hf)

/-- Settles O59, by induction on the number of accesses the HOST has to come. -/
theorem busyFalls : Obligations.BusyFalls := by
  intro s
  induction hk : s.host.length generalizing s with
  | zero =>
    intro hi hb
    rcases step_busy hi hb with ⟨t, h, ht⟩ | ⟨o, w, h⟩ | ⟨t, h, -, hl⟩
    · exact ⟨1, le_rfl, Or.inl ⟨t, run_of_step_next h 0, ht⟩⟩
    · exact ⟨1, le_rfl, Or.inr ⟨o, w, run_of_step_fault h 0⟩⟩
    · omega
  | succ k ih =>
    intro hi hb
    rcases step_busy hi hb with ⟨t, h, ht⟩ | ⟨o, w, h⟩ | ⟨t, h, hbt, hl⟩
    · exact ⟨1, by omega, Or.inl ⟨t, run_of_step_next h 0, ht⟩⟩
    · exact ⟨1, by omega, Or.inr ⟨o, w, run_of_step_fault h 0⟩⟩
    · obtain ⟨n, hn, hrun⟩ := ih t (by omega) (stepKeepsInvariant s t hi h) hbt
      have hstep := run_of_step_next (M := core) h n
      rcases hrun with ⟨u, hu, hbu⟩ | ⟨o, w, hf⟩
      · exact ⟨n + 1, by omega, Or.inl ⟨u, hstep.trans hu, hbu⟩⟩
      · exact ⟨n + 1, by omega, Or.inr ⟨o, w, hstep.trans hf⟩⟩

end Sys2Proof.Machine
end

section
/-! PROOFS. The host window (R50 to R54), access by access, and the transport session (R63): the statements of
20_memory.md. -/

namespace Sys2Proof.Machine

/-! ### The window's accesses -/

/-- R90: BUSY = 0, so the word is accepted. -/
theorem writeCmd_idle {s : State} (h : s.busy = false) (v : Word) : writeCmd v s = accept v s := by
  simp [writeCmd, h]

/-- R205: BUSY = 1, so the word is dropped. -/
theorem writeCmd_busy {s : State} (h : s.busy = true) (v : Word) : writeCmd v s = overrun s := by
  simp [writeCmd, h]

theorem hostAct_writeCmd (v : Word) (s : State) : hostAct (.write cmdOffset 4 v) s = .next (writeCmd v s) := rfl

theorem hostAct_writeStatus (v : Word) (s : State) : hostAct (.write statusOffset 4 v) s = .next s := rfl

theorem hostAct_readCmd (s : State) : hostAct (.read cmdOffset 4) s = .next (deliver 0#32 s) := rfl

/-- A STATUS read marks the last command read back when it was written and BUSY = 0, and is no news otherwise (R234). -/
theorem afterStatusRead_eq (b : Bool) (l : LastCommand) :
    afterStatusRead b l = if l = .written ∧ b = false then .readBack else l := by
  cases l with
  | notWritten => simp
  | written => cases b <;> simp
  | readBack => simp

/-- R54: an access that is neither CMD's nor STATUS's is a fault, whichever way it goes. -/
theorem hostAct_unsupported {offset width : Nat}
    (h : ¬ (width = 4 ∧ (offset = cmdOffset ∨ offset = statusOffset))) (s : State) (v : Word) :
    hostAct (.write offset width v) s = .fault (.badHostAccess offset width) ∧
    hostAct (.read offset width) s = .fault (.badHostAccess offset width) := by
  have notCmd : ¬ (width = 4 ∧ offset = cmdOffset) := fun ⟨hw, ho⟩ => h ⟨hw, Or.inl ho⟩
  have notStatus : ¬ (width = 4 ∧ offset = statusOffset) := fun ⟨hw, ho⟩ => h ⟨hw, Or.inr ho⟩
  constructor <;> simp only [hostAct, if_neg notCmd, if_neg notStatus]

/-! ### What a session leaves -/

theorem transfer_answer (a : Byte) (bytes : List Byte) (s : State) :
    (transfer a bytes s).1 = (sessionRun s.answerAt a bytes).answer := by
  rw [transfer_spec]

theorem transfer_trace (a : Byte) (bytes : List Byte) (s : State) :
    (transfer a bytes s).2.trace = s.trace ++ (sessionRun s.answerAt a bytes).events := by
  rw [transfer_spec]
  rfl

/-- R64: the session is closed whatever its answers. -/
theorem transfer_session (a : Byte) (bytes : List Byte) (s : State) : (transfer a bytes s).2.session = false := rfl

/-! ### The statements -/

/-- Settles O10: neither test of `hostAct` holds of such an access. -/
theorem unsupportedAccessFaults : Obligations.UnsupportedAccessFaults := by
  intro s offset width v h
  exact hostAct_unsupported h s v

/-- Settles O39: the session's run under the answers to come, in each of the three cases of R63. -/
theorem sessionTrace : Obligations.SessionTrace := by
  intro s a bytes
  rw [transfer_answer, transfer_trace]
  refine ⟨?acked, ?unopened, ?cut, transfer_session a bytes s⟩
  case acked =>
    intro h
    rw [sessionRun_acked a bytes h]
    exact ⟨rfl, rfl⟩
  case unopened =>
    rintro ⟨-, ht⟩
    rw [sessionRun_unopened a bytes ht]
    exact ⟨rfl, rfl⟩
  case cut =>
    rintro sent b rest rfl ⟨h, ht⟩
    rw [sessionRun_cut a sent b rest h ht]
    exact ⟨rfl, rfl⟩

/-- Settles O8: `accept` while BUSY = 0, `overrun` while BUSY = 1. -/
theorem cmdWriteAcceptedOrOverrun : Obligations.CmdWriteAcceptedOrOverrun := by
  intro s v
  constructor
  · intro idle
    exact (hostAct_writeCmd v s).trans (congrArg _ (writeCmd_idle idle v))
  · intro busy
    exact (hostAct_writeCmd v s).trans (congrArg _ (writeCmd_busy busy v))

/-- Settles O9: `readStatus`, with the read-back as a condition on BUSY, then the CMD read and the ignored write. -/
theorem windowReadsAndIgnoredWrite : Obligations.WindowReadsAndIgnoredWrite := by
  intro s v
  refine ⟨?_, hostAct_readCmd s, hostAct_writeStatus v s⟩
  rw [← afterStatusRead_eq]
  exact hostAct_readStatus (Or.inl rfl) s

end Sys2Proof.Machine
end

section
/-! PROOFS. The three word formats (R80, R81) as numbers, and from these the encoding, the strict decoder and their round
trip; then the initialisation gate (R92). The statements of 30_encoding.md. -/

namespace Sys2Proof.Machine

/-! ### The fields of a word as numbers -/

theorem fieldOp_toNat (v : Word) : (fieldOp v).toNat = v.toNat / 2 ^ 24 := by
  have := v.isLt
  rw [fieldOp, BitVec.extractLsb'_toNat, Nat.shiftRight_eq_div_pow]
  omega

theorem fieldX_toNat (v : Word) : (fieldX v).toNat = v.toNat / 2 ^ 8 % 2 ^ 8 := by
  rw [fieldX, BitVec.extractLsb'_toNat, Nat.shiftRight_eq_div_pow]

theorem fieldY_toNat (v : Word) : (fieldY v).toNat = v.toNat % 2 ^ 8 := by
  rw [fieldY, BitVec.extractLsb'_toNat, Nat.shiftRight_zero]

theorem fieldU_toNat (v : Word) : (fieldU v).toNat = v.toNat % 2 := by
  rw [fieldU, BitVec.getLsbD, Nat.testBit_zero]
  rcases Nat.mod_two_eq_zero_or_one v.toNat with h | h <;> simp [h]

/-- A field is 0 iff its digits of the word's number are. -/
theorem extractLsb'_eq_zero_iff (v : Word) (start len : Nat) :
    v.extractLsb' start len = 0#len ↔ v.toNat / 2 ^ start % 2 ^ len = 0 := by
  rw [← BitVec.toNat_inj, BitVec.extractLsb'_toNat, Nat.shiftRight_eq_div_pow, BitVec.toNat_ofNat, Nat.zero_mod]

/-! ### The words of each format as numbers -/

theorem encodeF0_toNat (op : Byte) : (encodeF0 op).toNat = 2 ^ 24 * op.toNat :=
  toNat_append_eq op 0#24

theorem encodeFXY_toNat (op x y : Byte) :
    (encodeFXY op x y).toNat = 2 ^ 24 * op.toNat + 2 ^ 8 * x.toNat + y.toNat := by
  refine (toNat_append_eq op (0#8 ++ (x ++ y) : BitVec 24)).trans ?_
  rw [toNat_append_eq 0#8 (x ++ y), toNat_append_eq x y, BitVec.toNat_ofNat]
  omega

theorem encodeFU_toNat (op : Byte) (u : Bool) : (encodeFU op u).toNat = 2 ^ 24 * op.toNat + u.toNat := by
  refine (toNat_append_eq op (0#23 ++ BitVec.ofBool u : BitVec 24)).trans ?_
  rw [toNat_append_eq 0#23 (BitVec.ofBool u), BitVec.toNat_ofNat, BitVec.toNat_ofBool]
  omega

theorem fieldOp_encodeF0 (op : Byte) : fieldOp (encodeF0 op) = op := fieldOp_word op _

theorem fieldOp_encodeFXY (op x y : Byte) : fieldOp (encodeFXY op x y) = op := fieldOp_word op _

theorem fieldOp_encodeFU (op : Byte) (u : Bool) : fieldOp (encodeFU op u) = op := fieldOp_word op _

theorem fieldU_encodeFU (op : Byte) (u : Bool) : fieldU (encodeFU op u) = u := by
  rw [fieldU, encodeFU, word_bit, if_pos (by decide)]
  cases u <;> rfl

/-! ### Decoding in each format: the bits that must be 0, as digits of the word -/

theorem decodeF0_eq (v : Word) (i : Instr) :
    decodeF0 v i = if v.toNat % 2 ^ 24 = 0 then .command i else .illegal .reservedBits := by
  simp only [decodeF0, extractLsb'_eq_zero_iff, Nat.pow_zero, Nat.div_one]

theorem decodeFXY_eq (v : Word) (i : Byte → Byte → Instr) :
    decodeFXY v i =
      if v.toNat / 2 ^ 16 % 2 ^ 8 = 0 then .command (i (fieldX v) (fieldY v)) else .illegal .reservedBits := by
  simp only [decodeFXY, fieldRsv, extractLsb'_eq_zero_iff]

theorem decodeFU_eq (v : Word) (i : Bool → Instr) :
    decodeFU v i = if v.toNat / 2 % 2 ^ 23 = 0 then .command (i (fieldU v)) else .illegal .reservedBits := by
  simp only [decodeFU, extractLsb'_eq_zero_iff, Nat.pow_one]

/-- A format's decoder answers its own command, where its test holds. -/
theorem ite_command_iff {p : Prop} [Decidable p] {i j : Instr} {r : Illegal} :
    (if p then Decoded.command j else .illegal r) = .command i ↔ p ∧ j = i := by
  by_cases h : p <;> simp [h]

/-- A format's decoder is illegal exactly where its test fails. -/
theorem ite_illegal_iff {p : Prop} [Decidable p] {i : Instr} {r : Illegal} :
    (∃ why, (if p then Decoded.command i else .illegal r) = .illegal why) ↔ ¬ p := by
  by_cases h : p <;> simp [h]

/-! ### The round trip in each format -/

theorem decodeF0_encodeF0 (op : Byte) (i : Instr) : decodeF0 (encodeF0 op) i = .command i :=
  if_pos (operands_word op 0#24)

theorem decodeFXY_encodeFXY (op x y : Byte) (i : Byte → Byte → Instr) :
    decodeFXY (encodeFXY op x y) i = .command (i x y) := by
  rw [decodeFXY, if_pos (fieldRsv_FXY op x y), fieldX_FXY, fieldY_FXY]

theorem decodeFU_encodeFU (op : Byte) (u : Bool) (i : Bool → Instr) :
    decodeFU (encodeFU op u) i = .command (i u) := by
  have reserved : (encodeFU op u).toNat / 2 % 2 ^ 23 = 0 := by
    have := u.toNat_lt
    rw [encodeFU_toNat]
    omega
  rw [decodeFU_eq, if_pos reserved, fieldU_encodeFU]

theorem encode_of_decodeF0 {v : Word} {i j : Instr} {op : Byte} (h : decodeF0 v j = .command i)
    (hj : encode j = encodeF0 op) (hop : (fieldOp v).toNat = op.toNat) : encode i = v := by
  rw [decodeF0_eq, ite_command_iff] at h
  obtain ⟨zeros, rfl⟩ := h
  rw [fieldOp_toNat] at hop
  rw [← BitVec.toNat_inj, hj, encodeF0_toNat]
  omega

theorem encode_of_decodeFXY {v : Word} {i : Instr} {j : Byte → Byte → Instr} {op : Byte}
    (h : decodeFXY v j = .command i) (hj : ∀ x y, encode (j x y) = encodeFXY op x y)
    (hop : (fieldOp v).toNat = op.toNat) : encode i = v := by
  rw [decodeFXY_eq, ite_command_iff] at h
  obtain ⟨zeros, rfl⟩ := h
  rw [fieldOp_toNat] at hop
  rw [← BitVec.toNat_inj, hj, encodeFXY_toNat, fieldX_toNat, fieldY_toNat]
  omega

theorem encode_of_decodeFU {v : Word} {i : Instr} {j : Bool → Instr} {op : Byte} (h : decodeFU v j = .command i)
    (hj : ∀ u, encode (j u) = encodeFU op u) (hop : (fieldOp v).toNat = op.toNat) : encode i = v := by
  rw [decodeFU_eq, ite_command_iff] at h
  obtain ⟨zeros, rfl⟩ := h
  rw [fieldOp_toNat] at hop
  rw [← BitVec.toNat_inj, hj, encodeFU_toNat, fieldU_toNat]
  omega

/-! ### The statements -/

/-- Settles O2: OP of the word selects the command's own row, and its format reads the operands back. -/
theorem decodeOfEncode : Obligations.DecodeOfEncode := by
  intro i
  unfold decode
  cases i with
  | init | clearAll | rotateLeft | rotateRight | flush | drawCheckmark =>
    rw [encode, fieldOp_encodeF0]
    exact decodeF0_encodeF0 _ _
  | setPixel x y | clearPixel x y | getPixel x y =>
    rw [encode, fieldOp_encodeFXY]
    exact decodeFXY_encodeFXY _ x y _
  | drawArrow u =>
    rw [encode, fieldOp_encodeFU]
    exact decodeFU_encodeFU _ u _

/-- Settles O3: row by row of the decoder, the word is its opcode and the operands read from it, every other bit 0. -/
theorem encodeOfDecode : Obligations.EncodeOfDecode := by
  intro w i h
  unfold decode at h
  split at h
  case h_1 op | h_4 op | h_5 op | h_6 op | h_7 op | h_9 op => exact encode_of_decodeF0 h rfl op
  case h_2 op | h_3 op | h_10 op => exact encode_of_decodeFXY h (fun _ _ => rfl) op
  case h_8 op => exact encode_of_decodeFU h (fun _ => rfl) op
  case h_11 => cases h

/-- Settles O1, from the number of a word in each format. -/
theorem encodingsFollowOpcodeMap : Obligations.EncodingsFollowOpcodeMap := by
  unfold Obligations.EncodingsFollowOpcodeMap
  simp only [encode, encodeF0_toNat, encodeFXY_toNat, encodeFU_toNat]
  exact ⟨rfl, rfl, rfl, rfl, rfl, rfl, rfl, rfl, fun _ _ => ⟨rfl, rfl, rfl⟩⟩

/-- Settles O4: row by row of the decoder, the bits its format tests; past the rows the opcode is 0 or above 0x0A. -/
theorem illegalWordsExactly : Obligations.IllegalWordsExactly := by
  intro w
  rw [← fieldOp_toNat]
  unfold decode
  split
  case h_1 op | h_4 op | h_5 op | h_6 op | h_7 op | h_9 op =>
    rw [decodeF0_eq, ite_illegal_iff, op]
    simp
  case h_2 op | h_3 op | h_10 op =>
    rw [decodeFXY_eq, ite_illegal_iff, op]
    simp
  case h_8 op =>
    rw [decodeFU_eq, ite_illegal_iff, op]
    simp
  case h_11 =>
    have unassigned : (fieldOp w).toNat = 0 ∨ 0x0A < (fieldOp w).toNat := by
      simp only [imp_false] at *
      omega
    rw [← or_assoc]
    exact ⟨fun _ => Or.inl unassigned, fun _ => ⟨_, rfl⟩⟩

/-- A session's answer is never reported as NOT_INIT (R200). -/
theorem answerCode_ne_notInit (a : Answer) : answerCode a ≠ .notInit := by
  cases a <;> decide

/-- Settles O15: the gate for the nine, and for INIT the code its sessions end with. -/
theorem initialisationGate : Obligations.InitialisationGate := by
  refine ⟨fun s i hi h => exec_notInit hi h, fun s => ⟨_, exec_init s, ?_⟩⟩
  rw [show effect .init s = _ from initSequence_spec s]
  exact answerCode_ne_notInit _

/-- Settles O5: the legal words are those of their commands, so `decodeOfEncode` reads them; the illegal ones by evaluation. -/
theorem specWordsDecode : Obligations.SpecWordsDecode :=
  ⟨decodeOfEncode .init, decodeOfEncode (.setPixel 3#8 3#8), decodeOfEncode (.setPixel 255#8 0#8),
    decodeOfEncode (.clearPixel 4#8 3#8), decodeOfEncode .rotateRight, decodeOfEncode .flush,
    decodeOfEncode (.drawArrow true), decodeOfEncode (.getPixel 7#8 7#8), by decide, by decide, by decide, by decide⟩

end Sys2Proof.Machine
end

section
/-! PROOFS. The pixel commands (40_pixel_ops.md): what GET_PIXEL reads of a frame buffer, the whole next state of each of the
four past the gate, and what any list of commands keeps. -/

namespace Sys2Proof.Machine

/-! ### What GET_PIXEL reads of a frame buffer -/

section PixelReads

variable {x y : Byte}

theorem getPixel_inRange (fb : FrameBuffer) {c r : Fin 8} (hc : c.val = x.toNat) (hr : r.val = y.toNat) :
    fb.getPixel x y = fb.pixel c r := by
  rw [FrameBuffer.getPixel, coordinates_inRange hc hr]

/-- R14, R112: out of range reads 0, with no clamping. -/
theorem getPixel_outOfRange (fb : FrameBuffer) (h : 8 ≤ x.toNat ∨ 8 ≤ y.toNat) : fb.getPixel x y = false := by
  rw [FrameBuffer.getPixel, coordinates_outOfRange h]

theorem setPixel_outOfRange (fb : FrameBuffer) (h : 8 ≤ x.toNat ∨ 8 ≤ y.toNat) : fb.setPixel x y = fb := by
  rw [FrameBuffer.setPixel, coordinates_outOfRange h]

theorem clearPixel_outOfRange (fb : FrameBuffer) (h : 8 ≤ x.toNat ∨ 8 ≤ y.toNat) : fb.clearPixel x y = fb := by
  rw [FrameBuffer.clearPixel, coordinates_outOfRange h]

/-- R101: a coordinate in range reads 1 once it is set. -/
theorem getPixel_setPixel_same (fb : FrameBuffer) (hx : x.toNat < 8) (hy : y.toNat < 8) :
    (fb.setPixel x y).getPixel x y = true := by
  rw [getPixel_inRange _ (c := ⟨x.toNat, hx⟩) (r := ⟨y.toNat, hy⟩) rfl rfl, pixel_setPixel, if_pos ⟨rfl, rfl⟩]

/-- R105: a coordinate in range reads 0 once it is cleared. -/
theorem getPixel_clearPixel_same (fb : FrameBuffer) (hx : x.toNat < 8) (hy : y.toNat < 8) :
    (fb.clearPixel x y).getPixel x y = false := by
  rw [getPixel_inRange _ (c := ⟨x.toNat, hx⟩) (r := ⟨y.toNat, hy⟩) rfl rfl, pixel_clearPixel, if_pos ⟨rfl, rfl⟩]

/-- R101: any other coordinate reads as before. -/
theorem getPixel_setPixel_other (fb : FrameBuffer) {c r : Byte} (hc : c.toNat < 8) (hr : r.toNat < 8)
    (h : ¬ (c = x ∧ r = y)) : (fb.setPixel x y).getPixel c r = fb.getPixel c r := by
  have other : ¬ (c.toNat = x.toNat ∧ r.toNat = y.toNat) := by simpa only [BitVec.toNat_inj] using h
  have reads (f : FrameBuffer) : f.getPixel c r = f.pixel ⟨c.toNat, hc⟩ ⟨r.toNat, hr⟩ := getPixel_inRange f rfl rfl
  rw [reads, reads, pixel_setPixel, if_neg other]

/-- R105: SET_PIXEL then CLEAR_PIXEL of one coordinate, pixel by pixel. -/
theorem pixel_clearPixel_setPixel (fb : FrameBuffer) (x y : Byte) (c r : Fin 8) :
    ((fb.setPixel x y).clearPixel x y).pixel c r =
      if c.val = x.toNat ∧ r.val = y.toNat then false else fb.pixel c r := by
  rw [pixel_clearPixel, pixel_setPixel]
  by_cases target : c.val = x.toNat ∧ r.val = y.toNat
  · rw [if_pos target, if_pos target]
  · rw [if_neg target, if_neg target, if_neg target]

/-- R109: with every row 0x00 every coordinate reads 0. -/
theorem getPixel_of_rows_zero {fb : FrameBuffer} (h : ∀ r, fb.row r = 0x00#8) (x y : Byte) :
    fb.getPixel x y = false := by
  unfold FrameBuffer.getPixel
  split
  · rw [FrameBuffer.pixel, h, BitVec.getLsbD_zero]
  · rfl

end PixelReads

/-! ### The whole next state of each pixel command past the gate -/

section PixelCommands

variable {s : State} (hs : s.inited = true) (x y : Byte)
include hs

theorem exec_setPixel : exec (.setPixel x y) s =
    .next { s with fb := s.fb.setPixel x y, err := .ok, busy := false, command := none } :=
  exec_inited hs

theorem exec_clearPixel : exec (.clearPixel x y) s =
    .next { s with fb := s.fb.clearPixel x y, err := .ok, busy := false, command := none } :=
  exec_inited hs

theorem exec_clearAll : exec .clearAll s =
    .next { s with fb := .ofRows fun _ => 0x00#8, err := .ok, busy := false, command := none } :=
  exec_inited hs

theorem exec_getPixel : exec (.getPixel x y) s =
    .next { s with pixel := s.fb.getPixel x y, err := .ok, busy := false, command := none } :=
  exec_inited hs

end PixelCommands

/-! ### What a command and a list of commands keep -/

/-- No command clears INITED (R25, R192). -/
theorem exec_keeps_inited {i : Instr} {s t : State} (h : exec i s = .next t) (hs : s.inited = true) :
    t.inited = true := by
  rcases exec_next h with rfl | rfl
  · exact hs
  · exact effect_inited hs

/-- A command outside R23's list keeps the frame buffer, past the gate or stopped by it (R39). -/
theorem exec_keeps_fb {i : Instr} {s t : State} (hi : writesFrameBuffer i = false) (h : exec i s = .next t) :
    t.fb = s.fb := by
  rcases exec_next h with rfl | rfl
  · rfl
  · exact effect_fb hi s

/-- A list of commands that answers a state does so by its first command and the rest from there. -/
theorem execAll_cons_eq_some {i : Instr} {rest : List Instr} {s u : State} (h : execAll (i :: rest) s = some u) :
    ∃ t, exec i s = .next t ∧ execAll rest t = some u := by
  rw [execAll] at h
  split at h
  · next t ht => exact ⟨t, ht, h⟩
  · cases h

/-- What each of the commands keeps, the list of them keeps. -/
theorem execAll_keeps {P : State → Prop} {cmds : List Instr}
    (keep : ∀ i ∈ cmds, ∀ s t, P s → exec i s = .next t → P t) {s u : State} (hs : P s)
    (h : execAll cmds s = some u) : P u := by
  induction cmds generalizing s with
  | nil => cases h; exact hs
  | cons i rest ih =>
    obtain ⟨t, ht, hrest⟩ := execAll_cons_eq_some h
    exact ih (fun j hj => keep j (List.mem_cons_of_mem _ hj)) (keep i List.mem_cons_self s t hs ht) hrest

theorem execAll_keeps_inited {cmds : List Instr} {s u : State} (h : execAll cmds s = some u)
    (hs : s.inited = true) : u.inited = true :=
  execAll_keeps (P := fun s => s.inited = true) (fun _ _ _ _ hs ht => exec_keeps_inited ht hs) hs h

theorem execAll_keeps_fb {cmds : List Instr} {s u : State} (hw : ∀ i ∈ cmds, writesFrameBuffer i = false)
    (h : execAll cmds s = some u) : u.fb = s.fb :=
  execAll_keeps (P := fun t => t.fb = s.fb) (fun i hi _ _ hs ht => (exec_keeps_fb (hw i hi) ht).trans hs) rfl h

/-! ### What the pixel commands leave behind them -/

theorem exec_setPixel_fb {s t : State} {x y : Byte} (hs : s.inited = true)
    (h : exec (.setPixel x y) s = .next t) : t.fb = s.fb.setPixel x y := by
  rw [exec_setPixel hs] at h
  cases h
  rfl

theorem exec_clearPixel_fb {s t : State} {x y : Byte} (hs : s.inited = true)
    (h : exec (.clearPixel x y) s = .next t) : t.fb = s.fb.clearPixel x y := by
  rw [exec_clearPixel hs] at h
  cases h
  rfl

theorem exec_getPixel_pixel {s t : State} {x y : Byte} (hs : s.inited = true)
    (h : exec (.getPixel x y) s = .next t) : t.pixel = s.fb.getPixel x y := by
  rw [exec_getPixel hs] at h
  cases h
  rfl

/-- R113: GET_PIXEL emits no transport event, past the gate or stopped by it. -/
theorem exec_getPixel_trace {s t : State} {x y : Byte} (h : exec (.getPixel x y) s = .next t) :
    t.trace = s.trace := by
  rcases exec_next h with rfl | rfl <;> rfl

/-- R112: a GET_PIXEL past the gate gives what the frame buffer reads. -/
theorem exec_getPixel_gives {s : State} {x y : Byte} {p : Bool} (hs : s.inited = true)
    (h : s.fb.getPixel x y = p) : ∃ u, exec (.getPixel x y) s = .next u ∧ u.pixel = p :=
  ⟨_, exec_getPixel hs x y, h⟩

/-! ### The statements -/

/-- Settles O22, by the pixels after SET_PIXEL. -/
theorem setPixelEffect : Obligations.SetPixelEffect := fun s x y hs =>
  ⟨_, exec_setPixel hs x y, pixel_setPixel s.fb x y⟩

/-- Settles O23, by the pixels after CLEAR_PIXEL. -/
theorem clearPixelEffect : Obligations.ClearPixelEffect := fun s x y hs =>
  ⟨_, exec_clearPixel hs x y, pixel_clearPixel s.fb x y⟩

/-- Settles O24: INITED is kept, so the GET_PIXEL passes the gate and reads a row that is 0x00. -/
theorem clearAllEffect : Obligations.ClearAllEffect := by
  intro s hs
  have rows : ∀ r, (FrameBuffer.ofRows fun _ => 0x00#8).row r = 0x00#8 := row_ofRows _
  have ready := exec_keeps_inited (exec_clearAll hs) hs
  exact ⟨_, exec_clearAll hs, rfl, rows, fun x y _ _ => exec_getPixel_gives ready (getPixel_of_rows_zero rows x y)⟩

/-- Settles O25, by what GET_PIXEL reads in range and out of range. -/
theorem getPixelEffect : Obligations.GetPixelEffect := fun s x y hs =>
  ⟨_, exec_getPixel hs x y, fun _ _ hc hr => getPixel_inRange s.fb hc hr, getPixel_outOfRange s.fb⟩

/-- Settles O26: INITED is kept, so both GET_PIXELs pass the gate and read the frame buffers after and before. -/
theorem setPixelLaw : Obligations.SetPixelLaw := by
  intro s t x y hs h
  have ready : t.inited = true := exec_keeps_inited h hs
  rw [exec_setPixel_fb hs h]
  refine ⟨fun hx hy => exec_getPixel_gives ready ?_, fun c r hc hr other => ?_, setPixel_outOfRange s.fb⟩
  · rw [exec_setPixel_fb hs h, getPixel_setPixel_same s.fb hx hy]
  · refine ⟨_, _, exec_getPixel ready c r, exec_getPixel hs c r, ?_⟩
    rw [exec_setPixel_fb hs h, getPixel_setPixel_other s.fb hc hr other]

/-- Settles O27: the law by the pixels after CLEAR_PIXEL, the pair of commands by those after both. -/
theorem clearPixelLaw : Obligations.ClearPixelLaw := by
  refine ⟨fun s t x y hs h => ?_, fun s x y hs => ?_⟩
  · have ready : t.inited = true := exec_keeps_inited h hs
    rw [exec_clearPixel_fb hs h]
    refine ⟨fun hx hy => exec_getPixel_gives ready ?_, fun c r other => ?_, clearPixel_outOfRange s.fb⟩
    · rw [exec_clearPixel_fb hs h, getPixel_clearPixel_same s.fb hx hy]
    · rw [pixel_clearPixel, if_neg other]
  · have ready := exec_keeps_inited (exec_setPixel hs x y) hs
    exact ⟨_, _, exec_setPixel hs x y, exec_clearPixel ready x y, pixel_clearPixel_setPixel s.fb x y⟩

/-- Settles O28: GET_PIXEL and the commands between keep the frame buffer and INITED, so both reads pass the gate and read one
frame buffer. -/
theorem getPixelLaw : Obligations.GetPixelLaw := by
  intro s t x y h
  have first : t.fb = s.fb := exec_keeps_fb rfl h
  refine ⟨first, exec_getPixel_trace h, fun between u v hs silent hbetween hv => ?_⟩
  have ready : u.inited = true := execAll_keeps_inited hbetween (exec_keeps_inited h hs)
  calc v.pixel = u.fb.getPixel x y := exec_getPixel_pixel ready hv
    _ = s.fb.getPixel x y := by rw [execAll_keeps_fb silent hbetween, first]
    _ = t.pixel := (exec_getPixel_pixel hs h).symm

/-- Settles O29: out of range each command leaves the frame buffer as it is, or reads 0. -/
theorem outOfRangeIsSilent : Obligations.OutOfRangeIsSilent := by
  intro s x y hs out
  refine ⟨?_, ?_, ?_⟩
  · rw [exec_setPixel hs, setPixel_outOfRange s.fb out]
  · rw [exec_clearPixel hs, clearPixel_outOfRange s.fb out]
  · rw [exec_getPixel hs, getPixel_outOfRange s.fb out]

end Sys2Proof.Machine
end

section
/-! PROOFS. The row rotates (41_row_rotate.md): each maps every row by one map of bytes, and that map reads each bit from a
bit a fixed distance up the row; from these two facts, the statements about the rotates. -/

namespace Sys2Proof.Machine

/-! ### Every row mapped by one function -/

/-- The frame buffer with every row mapped by `g`. -/
def FrameBuffer.mapRows (fb : FrameBuffer) (g : Byte → Byte) : FrameBuffer := .ofRows fun y => g (fb.row y)

@[simp] theorem row_mapRows (fb : FrameBuffer) (g : Byte → Byte) (y : Fin 8) : (fb.mapRows g).row y = g (fb.row y) :=
  row_ofRows _ y

theorem mapRows_mapRows (fb : FrameBuffer) (g h : Byte → Byte) : (fb.mapRows g).mapRows h = fb.mapRows (h ∘ g) :=
  frameBuffer_ext fun y => by simp

theorem mapRows_eq_self {g : Byte → Byte} (h : ∀ b, g b = b) (fb : FrameBuffer) : fb.mapRows g = fb :=
  frameBuffer_ext fun y => by rw [row_mapRows, h]

/-! ### A map of bytes that turns the row -/

/-- Bit c of `g b` is bit c + k (mod 8) of `b`. -/
def TurnsBits (g : Byte → Byte) (k : Fin 8) : Prop := ∀ (b : Byte) (c : Fin 8), (g b).getLsbD c.val = b.getLsbD (c + k).val

theorem turnsBits_rol8 : TurnsBits (rol8 · 1) 7 := rol8_bit

theorem turnsBits_ror8 : TurnsBits (ror8 · 1) 1 := ror8_bit

/-- The number of 1 bits of a row. -/
def litBits (b : Byte) : Nat := ascending.countP fun c => b.getLsbD c.val

theorem litInRow_eq_litBits (fb : FrameBuffer) (y : Fin 8) : fb.litInRow y = litBits (fb.row y) :=
  List.countP_eq_length_filter.symm

theorem ascending_turned_perm : ∀ k : Fin 8, (ascending.map (· + k)).Perm ascending := by decide

section Turns

variable {g : Byte → Byte} {k : Fin 8} (h : TurnsBits g k)
include h

/-- Turning n times adds up the distances. -/
theorem TurnsBits.iterate (n : Nat) : TurnsBits g^[n] (n • k) := by
  induction n with
  | zero => intro b c; simp
  | succ n ih =>
    intro b c
    rw [Function.iterate_succ_apply, ih, h, add_assoc, succ_nsmul]

/-- Eight turns of any distance bring every bit back (R134). -/
theorem TurnsBits.iterate_eight (b : Byte) : g^[8] b = b := by
  have around : ∀ k : Fin 8, 8 • k = 0 := by decide
  exact byte_ext fun c => by rw [h.iterate 8, around, add_zero]

/-- A turn permutes the bits, so it keeps the number of 1 bits (R135). -/
theorem TurnsBits.litBits_eq (b : Byte) : litBits (g b) = litBits b :=
  calc litBits (g b) = ascending.countP fun c => b.getLsbD (c + k).val := by simp only [litBits, h b]
    _ = (ascending.map (· + k)).countP fun c => b.getLsbD c.val := List.countP_map.symm
    _ = litBits b := (ascending_turned_perm k).countP_eq _

theorem TurnsBits.pixel_mapRows (fb : FrameBuffer) (x y : Fin 8) : (fb.mapRows g).pixel x y = fb.pixel (x + k) y := by
  rw [FrameBuffer.pixel, row_mapRows, h, FrameBuffer.pixel]

/-- Where the content of a pixel goes: as far on as the turn reads back. -/
theorem TurnsBits.pixel_mapRows_moved {j : Fin 8} (hj : j + k = 0) (fb : FrameBuffer) (x y : Fin 8) :
    (fb.mapRows g).pixel (x + j) y = fb.pixel x y := by
  rw [h.pixel_mapRows, add_assoc, hj, add_zero]

end Turns

/-! ### The rotates of a byte -/

theorem rol8_toNat (b : Byte) : (rol8 b 1).toNat = 2 * b.toNat % 256 + b.toNat / 128 := by
  revert b; decide

theorem ror8_toNat (b : Byte) : (ror8 b 1).toNat = b.toNat / 2 + 128 * (b.toNat % 2) := by
  revert b; decide

/-- R134: the one lit bit of 0x01 climbs one place with each rotate left. -/
theorem rol8_iterate_one : ∀ k : Fin 8, (rol8 · 1)^[k.val] 0x01#8 = 0x01#8 <<< k.val := by decide

/-- R134: no count of either rotate from 1 to 7 returns the byte 0x01. -/
theorem rotate_iterate_one_ne : ∀ k : Fin 8, k ≠ 0 →
    (rol8 · 1)^[k.val] 0x01#8 ≠ 0x01#8 ∧ (ror8 · 1)^[k.val] 0x01#8 ≠ 0x01#8 := by decide

/-- R136: the wiring transform is the rotate right by one. -/
theorem wxf_eq_ror8 (b : Byte) : wxf b = ror8 b 1 := by
  revert b; decide

theorem wxf_rol8 (b : Byte) : wxf (rol8 b 1) = b := by
  rw [wxf_eq_ror8, ror8_rol8]

/-! ### The whole next state of a rotate past the gate -/

/-- The state after a command that maps every row by `g` and completes with OK. -/
def State.rowsMapped (s : State) (g : Byte → Byte) : State :=
  { s with fb := s.fb.mapRows g, err := .ok, busy := false, command := none }

@[simp] theorem rowsMapped_fb (s : State) (g : Byte → Byte) : (s.rowsMapped g).fb = s.fb.mapRows g := rfl

/-- Past the gate, the command maps every row by `g`, completes with OK and does nothing else. -/
def MapsRows (i : Instr) (g : Byte → Byte) : Prop := ∀ s : State, s.inited = true → exec i s = .next (s.rowsMapped g)

theorem mapsRows_rotateLeft : MapsRows .rotateLeft (rol8 · 1) := fun _ hs => exec_inited hs

theorem mapsRows_rotateRight : MapsRows .rotateRight (ror8 · 1) := fun _ hs => exec_inited hs

/-! ### Rotates one after another -/

theorem execAll_cons {i : Instr} {rest : List Instr} {s t : State} (h : exec i s = .next t) :
    execAll (i :: rest) s = execAll rest t := by
  rw [execAll, h]

theorem execAll_pair {i j : Instr} {s t u : State} (hi : exec i s = .next t) (hj : exec j t = .next u) :
    execAll [i, j] s = some u := by
  rw [execAll_cons hi, execAll_cons hj, execAll]

/-- Two commands whose row maps undo one another return the frame buffer (R133). -/
theorem MapsRows.execAll_undo {i j : Instr} {g h : Byte → Byte} (hi : MapsRows i g) (hj : MapsRows j h)
    (undo : ∀ b, h (g b) = b) {s : State} (hs : s.inited = true) : ∃ t, execAll [i, j] s = some t ∧ t.fb = s.fb :=
  ⟨_, execAll_pair (hi s hs) (hj _ hs), (mapRows_mapRows s.fb g h).trans (mapRows_eq_self undo s.fb)⟩

/-- The command n times over maps every row by the n-th iterate. -/
theorem MapsRows.execAll_replicate {i : Instr} {g : Byte → Byte} (hi : MapsRows i g) (n : Nat) {s : State}
    (hs : s.inited = true) : ∃ t, execAll (List.replicate n i) s = some t ∧ t.fb = s.fb.mapRows g^[n] := by
  induction n generalizing s with
  | zero => exact ⟨s, rfl, (mapRows_eq_self (fun _ => rfl) s.fb).symm⟩
  | succ n ih =>
    obtain ⟨t, ht, hfb⟩ := ih (s := s.rowsMapped g) hs
    refine ⟨t, ?_, ?_⟩
    · rw [List.replicate_succ, execAll_cons (hi s hs), ht]
    · rw [hfb, rowsMapped_fb, mapRows_mapRows, Function.iterate_succ]

/-- Eight times over, a command that turns every row returns the frame buffer (R134). -/
theorem MapsRows.execAll_eight {i : Instr} {g : Byte → Byte} {k : Fin 8} (hi : MapsRows i g) (hg : TurnsBits g k)
    {s : State} (hs : s.inited = true) : ∃ t, execAll (List.replicate 8 i) s = some t ∧ t.fb = s.fb := by
  obtain ⟨t, ht, hfb⟩ := hi.execAll_replicate 8 hs
  exact ⟨t, ht, hfb.trans (mapRows_eq_self hg.iterate_eight s.fb)⟩

/-- A count that changes the byte 0x01 changes every frame buffer with 0x01 in row 0. -/
theorem MapsRows.execAll_replicate_ne {i : Instr} {g : Byte → Byte} (hi : MapsRows i g) {n : Nat}
    (hg : g^[n] 0x01#8 ≠ 0x01#8) {s : State} (hs : s.inited = true) (h0 : s.fb.row 0 = 0x01#8) :
    ∃ t, execAll (List.replicate n i) s = some t ∧ t.fb ≠ s.fb := by
  obtain ⟨t, ht, hfb⟩ := hi.execAll_replicate n hs
  refine ⟨t, ht, fun same => hg ?_⟩
  calc g^[n] 0x01#8 = t.fb.row 0 := by rw [hfb, row_mapRows, h0]
    _ = 0x01#8 := by rw [same, h0]

/-! ### A FLUSH after a rotate -/

/-- R63, R145: an acknowledged FLUSH past the gate, whole. -/
theorem exec_flush_acked {s : State} (hs : s.inited = true) (ha : s.AllAck 18) :
    exec .flush s = .next (complete .ok (s.ran 18 (ackedSession Config.addrW (frameBytes s.fb)) false)) := by
  have run := sessionRun_acked Config.addrW (frameBytes s.fb) ha
  rw [exec_inited hs, show effect .flush s = _ from flushFrame_spec s, run]
  rfl

/-- R136: the frame of a buffer rotated left by one carries its rows as they were, row 7 first. -/
theorem frameBytes_mapRows_rol8 (fb : FrameBuffer) :
    frameBytes (fb.mapRows (rol8 · 1)) = Config.regBase :: descending.flatMap fun y => [fb.row y, Config.pad] := by
  simp only [frameBytes, row_mapRows, wxf_rol8]

/-! ### The statements -/

/-- Settles O30, by the numbers of the byte rotate and the bits it turns. -/
theorem rotateLeftEffect : Obligations.RotateLeftEffect := fun s hs =>
  ⟨_, mapsRows_rotateLeft s hs, fun y => by rw [row_mapRows, rol8_toNat],
    fun x y => ⟨turnsBits_rol8.pixel_mapRows s.fb x y, turnsBits_rol8.pixel_mapRows_moved rfl s.fb x y⟩⟩

/-- Settles O31, by the numbers of the byte rotate and the bits it turns. -/
theorem rotateRightEffect : Obligations.RotateRightEffect := fun s hs =>
  ⟨_, mapsRows_rotateRight s hs, fun y => by rw [row_mapRows, ror8_toNat],
    fun x y => ⟨turnsBits_ror8.pixel_mapRows s.fb x y, turnsBits_ror8.pixel_mapRows_moved rfl s.fb x y⟩⟩

/-- Settles O32: the byte rotates undo one another, so the two row maps after one another keep every row. -/
theorem rotatesAreInverse : Obligations.RotatesAreInverse := by
  intro s hs
  refine ⟨?_, ?_, ?_, fun b => ⟨ror8_rol8 b, rol8_ror8 b⟩⟩
  · exact mapsRows_rotateLeft.execAll_undo mapsRows_rotateRight ror8_rol8 hs
  · exact mapsRows_rotateRight.execAll_undo mapsRows_rotateLeft rol8_ror8 hs
  · exact ⟨_, mapsRows_rotateRight s hs, turnsBits_ror8.pixel_mapRows_moved rfl s.fb⟩

/-- The ready state with pixel (0, 0) alone lit: no fewer than eight rotates return its frame buffer (R134). -/
def cornerLit : State := { State.reset with inited := true, fb := { State.reset.fb with row0 := 0x01#8 } }

/-- Settles O33: the eighth iterate of either byte rotate is the identity, and no earlier one fixes the byte 0x01. -/
theorem rotatePeriodIsEight : Obligations.RotatePeriodIsEight := by
  refine ⟨fun s hs => ⟨?_, ?_⟩, fun s k hs h0 => ?_, fun k hpos hlt => ?_⟩
  · exact mapsRows_rotateLeft.execAll_eight turnsBits_rol8 hs
  · exact mapsRows_rotateRight.execAll_eight turnsBits_ror8 hs
  · obtain ⟨t, ht, hfb⟩ := mapsRows_rotateLeft.execAll_replicate k.val hs
    exact ⟨t, ht, by rw [hfb, row_mapRows, h0, rol8_iterate_one]⟩
  · obtain ⟨left, right⟩ := rotate_iterate_one_ne ⟨k, hlt⟩ (Fin.ne_of_val_ne hpos.ne')
    obtain ⟨t, ht, htfb⟩ := mapsRows_rotateLeft.execAll_replicate_ne left (s := cornerLit) rfl rfl
    obtain ⟨u, hu, hufb⟩ := mapsRows_rotateRight.execAll_replicate_ne right (s := cornerLit) rfl rfl
    exact ⟨cornerLit, t, u, rfl, ht, htfb, hu, hufb⟩

/-- A command that turns every row acts on each row alone and keeps its number of lit pixels (R135). -/
theorem MapsRows.keeps_rows {i : Instr} {g : Byte → Byte} {k : Fin 8} (hi : MapsRows i g) (hg : TurnsBits g k) (s : State)
    (hs : s.inited = true) :
    ∃ t, exec i s = .next t ∧ ∀ y : Fin 8, t.fb.row y = g (s.fb.row y) ∧ t.fb.litInRow y = s.fb.litInRow y := by
  refine ⟨_, hi s hs, fun y => ⟨row_mapRows s.fb g y, ?_⟩⟩
  rw [rowsMapped_fb, litInRow_eq_litBits, row_mapRows, hg.litBits_eq, litInRow_eq_litBits]

/-- Settles O34: either rotate maps every row by its byte rotate, which permutes the row's bits. -/
theorem rotatesKeepRows : Obligations.RotatesKeepRows := by
  rintro i (rfl | rfl)
  · exact ⟨(rol8 · 1), mapsRows_rotateLeft.keeps_rows turnsBits_rol8⟩
  · exact ⟨(ror8 · 1), mapsRows_rotateRight.keeps_rows turnsBits_ror8⟩

/-- Settles O35: the rotate draws no answer, so the FLUSH is acknowledged, and the wiring transform undoes the rotate. -/
theorem flushAfterRotateLeft : Obligations.FlushAfterRotateLeft := by
  refine ⟨fun b => ⟨wxf_eq_ror8 b, wxf_rol8 b⟩, fun s hs acked => ?_⟩
  have acked' : (s.rowsMapped (rol8 · 1)).AllAck 18 := acked
  refine ⟨_, execAll_pair (mapsRows_rotateLeft s hs) (exec_flush_acked hs acked'), ?_⟩
  rw [rowsMapped_fb, frameBytes_mapRows_rol8]
  rfl

end Sys2Proof.Machine
end

section
/-! PROOFS. The renderer (42_renderer.md): the wiring transform of a byte, FrameBytes by position, the whole next state of a FLUSH
past the gate, and which commands drive the transport. -/

namespace Sys2Proof.Machine

/-! ### The wiring transform -/

theorem turnsBits_wxf : TurnsBits wxf 1 := by
  intro b c
  rw [wxf_eq_ror8, ror8_bit]

theorem wxf_toNat (b : Byte) : (wxf b).toNat = b.toNat / 2 + 128 * (b.toNat % 2) := by
  rw [wxf_eq_ror8, ror8_toNat]

theorem rol8_wxf (b : Byte) : rol8 (wxf b) 1 = b := by
  rw [wxf_eq_ror8, rol8_ror8]

theorem wxf_bijective : Function.Bijective wxf :=
  Function.bijective_iff_has_inverse.mpr ⟨(rol8 · 1), rol8_wxf, wxf_rol8⟩

/-- Settles O36: the transform is the rotate right by one, whose number and bits are known. -/
theorem wiringTransformBits : Obligations.WiringTransformBits := fun b =>
  ⟨wxf_eq_ror8 b, wxf_toNat b, turnsBits_wxf b⟩

/-- Settles O37: the transform turns the bits of a byte by one place and rotating left undoes it; the listed values by
evaluation. -/
theorem wiringTransformProperties : Obligations.WiringTransformProperties := by
  refine ⟨fun b => ⟨rol8_wxf b, wxf_rol8 b⟩, wxf_bijective, by decide, by decide, turnsBits_wxf.iterate_eight, fun b => ?_⟩
  simpa only [litBits, List.countP_eq_length_filter] using turnsBits_wxf.litBits_eq b

/-! ### FrameBytes by position -/

/-- A list with two entries for each element holds those of element j at 2j and 2j + 1. -/
theorem getElem?_flatMap_pair {α β : Type} (g h : α → β) (xs : List α) (j : Nat) :
    (xs.flatMap fun x => [g x, h x])[2 * j]? = xs[j]?.map g ∧
    (xs.flatMap fun x => [g x, h x])[2 * j + 1]? = xs[j]?.map h := by
  induction xs generalizing j with
  | nil => exact ⟨rfl, rfl⟩
  | cons x xs ih =>
    cases j with
    | zero => exact ⟨rfl, rfl⟩
    | succ j => exact ih j

theorem descending_getElem? : ∀ j : Fin 8, descending[j.val]? = some (7 - j) := by decide

theorem frameBytes_length (fb : FrameBuffer) : (frameBytes fb).length = 17 := rfl

/-- Settles O38: after the base register, entry j of `descending` gives the bytes at 1 + 2j and 2 + 2j. -/
theorem frameBytesByPosition : Obligations.FrameBytesByPosition := by
  intro fb
  refine ⟨frameBytes_length fb, rfl, fun j => ?_⟩
  obtain ⟨row, pad⟩ := getElem?_flatMap_pair (fun y => wxf (fb.row y)) (fun _ => Config.pad) descending j.val
  rw [descending_getElem?] at row pad
  rw [Nat.add_comm 1, Nat.add_comm 2]
  exact ⟨row, pad⟩

/-! ### A FLUSH past the gate -/

/-- The transport run of a FLUSH: the session of the frame bytes to ADDR_W under the answers to come (R145). -/
def State.flushRun (s : State) : TransportRun := sessionRun s.answerAt Config.addrW (frameBytes s.fb)

/-- R145, R202: a FLUSH past the gate, whatever the answers: its run, then the completion with the run's answer. -/
theorem exec_flush {s : State} (hs : s.inited = true) :
    exec .flush s =
      .next (complete (answerCode s.flushRun.answer) (s.ran s.flushRun.draws s.flushRun.events false)) := by
  rw [exec_inited hs, show effect .flush s = _ from flushFrame_spec s]
  rfl

theorem exec_flush_trace {s t : State} (hs : s.inited = true) (h : exec .flush s = .next t) :
    t.trace = s.trace ++ s.flushRun.events := by
  rw [exec_flush hs] at h
  cases h
  rfl

/-- The wire bytes of acknowledged WRITEs and the CLOSE after them (R12). -/
theorem wireBytes_acked_writes (bytes : List Byte) :
    wireBytes ((bytes.map fun b => .wrote b .ack) ++ [.closed]) = bytes := by
  induction bytes with
  | nil => rfl
  | cons b rest ih => exact congrArg (b :: ·) ih

theorem wireBytes_ackedSession (a : Byte) (bytes : List Byte) : wireBytes (ackedSession a bytes) = a :: bytes :=
  congrArg (a :: ·) (wireBytes_acked_writes bytes)

/-- Settles O40: the acknowledged FLUSH whole, and the wire bytes of its session. -/
theorem flushAcknowledged : Obligations.FlushAcknowledged := fun s hs acked =>
  ⟨exec_flush_acked hs acked, wireBytes_ackedSession Config.addrW (frameBytes s.fb)⟩

/-- R63: a session whose first TIMEOUT is its k-th answer draws no answer after it. -/
theorem sessionRun_timedOut {f : Nat → Answer} (a : Byte) (bytes : List Byte) {k : Nat} (hk : k < bytes.length + 1)
    (h : ∀ j < k, f j = .ack) (ht : f k = .timeout) :
    sessionRun f a bytes = ⟨.timeout, k + 1, timedOutSession a bytes k⟩ := by
  cases k with
  | zero => exact sessionRun_unopened a bytes ht
  | succ n =>
    have hn : n < bytes.length := Nat.lt_of_succ_lt_succ hk
    have parts : bytes = bytes.take n ++ bytes.getD n 0x00#8 :: bytes.drop (n + 1) := by
      rw [List.getD_eq_getElem _ _ hn, ← List.drop_eq_getElem_cons hn, List.take_append_drop]
    have len : (bytes.take n).length = n := List.length_take_of_le hn.le
    have cut := sessionRun_cut (f := f) a (bytes.take n) (bytes.getD n 0x00#8) (bytes.drop (n + 1))
      (by rwa [len]) (by rwa [len])
    rwa [← parts, len] at cut

/-- Settles O41: the session of the 17 frame bytes, cut at its k-th answer. -/
theorem flushTimesOut : Obligations.FlushTimesOut := by
  rintro s k hs hk ⟨acked, timeout⟩
  have run : s.flushRun = ⟨.timeout, k + 1, timedOutSession Config.addrW (frameBytes s.fb) k⟩ :=
    sessionRun_timedOut Config.addrW (frameBytes s.fb) hk acked timeout
  rw [exec_flush hs, run]
  rfl

/-! ### Which answers a session looks at -/

/-- A run of WRITEs looks at one answer for each byte. -/
theorem writeRun_congr (bytes : List Byte) {f g : Nat → Answer} (h : ∀ k < bytes.length, f k = g k) :
    writeRun f bytes = writeRun g bytes := by
  induction bytes generalizing f g with
  | nil => rfl
  | cons b rest ih =>
    have later := ih (f := fun k => f (k + 1)) (g := fun k => g (k + 1)) fun k hk => h (k + 1) (Nat.succ_lt_succ hk)
    rw [writeRun, writeRun, h 0 (Nat.succ_pos _), later]

/-- A session looks at one answer for the OPEN and one for each byte. -/
theorem sessionRun_congr (a : Byte) (bytes : List Byte) {f g : Nat → Answer} (h : ∀ k < bytes.length + 1, f k = g k) :
    sessionRun f a bytes = sessionRun g a bytes := by
  have writes := writeRun_congr bytes (f := fun k => f (k + 1)) (g := fun k => g (k + 1))
    fun k hk => h (k + 1) (Nat.succ_lt_succ hk)
  rw [sessionRun, sessionRun, h 0 (Nat.succ_pos _), writes]

/-- Settles O42: FLUSH and the commands between keep the frame buffer and INITED, so both FLUSHes run one session of the same
bytes under the same answers. -/
theorem flushIdempotent : Obligations.FlushIdempotent := by
  intro s t u v between hs first silent hbetween same second
  have fb : u.fb = s.fb := (execAll_keeps_fb silent hbetween).trans (exec_keeps_fb rfl first)
  have ready : u.inited = true := execAll_keeps_inited hbetween (exec_keeps_inited first hs)
  have run : u.flushRun = s.flushRun := by
    rw [State.flushRun, fb]
    exact sessionRun_congr Config.addrW (frameBytes s.fb) same
  refine ⟨(exec_keeps_fb rfl second).trans fb, s.flushRun.events, exec_flush_trace hs first, ?_⟩
  rw [exec_flush_trace ready second, run]

/-! ### Which commands drive the transport -/

/-- Between the OPEN and the CLOSE a session has WRITEs only. -/
theorem writeRun_events_wrote (bytes : List Byte) (f : Nat → Answer) :
    ∀ e ∈ (writeRun f bytes).events, ∃ b r, e = .wrote b r := by
  induction bytes generalizing f with
  | nil => nofun
  | cons b rest ih =>
    rw [writeRun]
    cases f 0 with
    | ack => exact List.forall_mem_cons.mpr ⟨⟨b, _, rfl⟩, ih _⟩
    | timeout => exact List.forall_mem_singleton.mpr ⟨b, _, rfl⟩

/-- R63, R64: a session is one OPEN, WRITEs and one CLOSE, whatever its answers. -/
theorem sessionRun_events_shape (f : Nat → Answer) (a : Byte) (bytes : List Byte) :
    ∃ (r : Answer) (writes : List Event), (sessionRun f a bytes).events = .opened a r :: writes ++ [.closed] ∧
      ∀ e ∈ writes, ∃ b r', e = .wrote b r' := by
  rw [sessionRun]
  cases f 0 with
  | ack => exact ⟨_, _, rfl, writeRun_events_wrote bytes _⟩
  | timeout => exact ⟨.timeout, [], rfl, nofun⟩

/-- FLUSH and the glyphs make one session each, to ADDR_W (R145, R170). -/
theorem effect_one_session {i : Instr} (hd : drivesTransport i = true) (hi : i ≠ .init) (s : State) :
    ∃ bytes, (effect i s).2.trace = s.trace ++ (sessionRun s.answerAt Config.addrW bytes).events := by
  cases i with
  | init => exact absurd rfl hi
  | flush => exact ⟨_, by rw [effect, flushFrame_spec]; rfl⟩
  | drawArrow | drawCheckmark => exact ⟨_, by rw [effect, paintAndFlush_spec]; rfl⟩
  | _ => cases hd

/-- R66: a command outside the multiplexer's list adds no event and draws no answer, past the gate or stopped by it. -/
theorem exec_silent_keeps_transport {i : Instr} {s t : State} (hd : drivesTransport i = false)
    (h : exec i s = .next t) : t.trace = s.trace ∧ t.answers = s.answers ∧ t.freeAnswers = s.freeAnswers := by
  rcases exec_next h with rfl | rfl
  · exact ⟨rfl, rfl, rfl⟩
  · rw [effect_silent hd]
    exact ⟨rfl, rfl, rfl⟩

/-- Settles O43: a silent command keeps the transport, and past the gate the others but INIT make one session. -/
theorem transportMultiplexer : Obligations.TransportMultiplexer := by
  intro s t i h
  refine ⟨fun hd => exec_silent_keeps_transport hd h, fun hd hi hs => ?_⟩
  obtain ⟨bytes, trace⟩ := effect_one_session hd hi s
  obtain ⟨r, writes, events, wrote⟩ := sessionRun_events_shape s.answerAt Config.addrW bytes
  rw [exec_inited hs] at h
  cases h
  exact ⟨r, writes, by rw [complete_trace, trace, events], wrote⟩

end Sys2Proof.Machine
end

section
/-! PROOFS. The glyphs (43_glyphs.md): past the gate a glyph is a FLUSH of the painted frame buffer, so its next state, code and
events are FLUSH's, and its frame buffer is the paint whatever the answers. -/

namespace Sys2Proof.Machine

/-! ### A glyph as a FLUSH of the painted buffer -/

/-- The command is the glyph with the predicate `lit`: behind the gate, Paint and then the flush (R170). -/
def Paints (i : Instr) (lit : Fin 8 → Fin 8 → Bool) : Prop := ∀ s : State, exec i s = .next (gated (paintAndFlush lit) s)

theorem paints_drawArrow (u : Bool) : Paints (.drawArrow u) fun x y => arrowShape x (virtualRow u y) := fun _ => rfl

theorem paints_drawCheckmark : Paints .drawCheckmark checkmarkShape := fun _ => rfl

theorem glyph_paints {i : Instr} (h : i = .drawCheckmark ∨ ∃ u, i = .drawArrow u) : ∃ lit, Paints i lit := by
  rcases h with rfl | ⟨u, rfl⟩
  · exact ⟨_, paints_drawCheckmark⟩
  · exact ⟨_, paints_drawArrow u⟩

/-- The state with the glyph painted and nothing flushed yet. -/
def State.painted (s : State) (lit : Fin 8 → Fin 8 → Bool) : State := s.withFb (s.fb.paint lit)

/-- R202: a FLUSH past the gate answers a next state, in which ERR is OK or TIMEOUT. -/
theorem exec_flush_next {s : State} (hs : s.inited = true) :
    ∃ t, exec .flush s = .next t ∧ (t.err = .ok ∨ t.err = .timeout) := by
  refine ⟨_, exec_flush hs, ?_⟩
  rw [complete_err]
  cases s.flushRun.answer with
  | ack => exact Or.inl rfl
  | timeout => exact Or.inr rfl

section Glyphs

variable {i : Instr} {lit : Fin 8 → Fin 8 → Bool} {s : State}

/-- R92: before INIT a glyph neither paints nor flushes. -/
theorem Paints.exec_notInit (hi : Paints i lit) (hs : s.inited = false) : exec i s = .next (complete .notInit s) := by
  rw [hi s, gated_notInit hs]

/-- R170, R178: past the gate a glyph is the paint, then a FLUSH. -/
theorem Paints.exec_eq_flush (hi : Paints i lit) (hs : s.inited = true) : exec i s = exec .flush (s.painted lit) := by
  rw [hi s, gated_inited hs, exec_inited (s := s.painted lit) hs]
  rfl

/-- R178: past the gate the frame buffer after a glyph is the paint, whatever the answers. -/
theorem Paints.exec_next (hi : Paints i lit) (hs : s.inited = true) :
    ∃ t, exec i s = .next t ∧ t.inited = true ∧ t.fb = s.fb.paint lit ∧ (t.err = .ok ∨ t.err = .timeout) := by
  obtain ⟨t, flushed, err⟩ := exec_flush_next (s := s.painted lit) hs
  exact ⟨t, (hi.exec_eq_flush hs).trans flushed, exec_keeps_inited flushed hs, exec_keeps_fb rfl flushed, err⟩

/-- R170: a glyph past the gate with every answer ACK, whole. -/
theorem Paints.exec_acked (hi : Paints i lit) (hs : s.inited = true) (acked : s.AllAck 18) :
    exec i s = .next (complete .ok
      ((s.painted lit).ran 18 (ackedSession Config.addrW (frameBytes (s.fb.paint lit))) false)) :=
  (hi.exec_eq_flush hs).trans (exec_flush_acked (s := s.painted lit) hs acked)

end Glyphs

/-! ### The rows a glyph paints -/

/-- The arrow's row masks, row 0 first (R173). -/
def arrowRows (u : Bool) : List Byte :=
  if u then [0x18#8, 0x3C#8, 0x7E#8, 0xFF#8, 0xDB#8, 0x18#8, 0x18#8, 0x18#8]
  else [0x18#8, 0x18#8, 0x18#8, 0xDB#8, 0xFF#8, 0x7E#8, 0x3C#8, 0x18#8]

/-- The checkmark's row masks, row 0 first (R177). -/
def checkmarkRows : List Byte := [0xC0#8, 0xC0#8, 0xE0#8, 0x60#8, 0x73#8, 0x3F#8, 0x1E#8, 0x0C#8]

theorem rowMask_arrowShape : ∀ (u : Bool) (y : Fin 8),
    rowMask (fun x => arrowShape x (virtualRow u y)) = (arrowRows u).getD y.val 0x00#8 := by decide

theorem rowMask_checkmarkShape : ∀ y : Fin 8,
    rowMask (fun x => checkmarkShape x y) = checkmarkRows.getD y.val 0x00#8 := by decide

theorem row_paint_arrow (fb : FrameBuffer) (u : Bool) (y : Fin 8) :
    (fb.paint fun x y => arrowShape x (virtualRow u y)).row y = fb.row y ||| (arrowRows u).getD y.val 0x00#8 := by
  rw [row_paint, rowMask_arrowShape]

theorem row_paint_checkmark (fb : FrameBuffer) (y : Fin 8) :
    (fb.paint checkmarkShape).row y = fb.row y ||| checkmarkRows.getD y.val 0x00#8 := by
  rw [row_paint, rowMask_checkmarkShape]

/-- The rows of the two arrows together (R174). -/
theorem arrowRows_union : ∀ y : Fin 8, (arrowRows true).getD y.val 0x00#8 ||| (arrowRows false).getD y.val 0x00#8 =
    [0x18#8, 0x3C#8, 0x7E#8, 0xFF#8, 0xFF#8, 0x7E#8, 0x3C#8, 0x18#8].getD y.val 0x00#8 := by decide

/-- R172: pointing up turns the rows over. -/
theorem virtualRow_up (y : Fin 8) : virtualRow true y = virtualRow false (7 - y) := by
  revert y; decide

/-- From a cleared buffer a paint leaves the predicate itself. -/
theorem pixel_paint_cleared {fb : FrameBuffer} (clear : ∀ y, fb.row y = 0x00#8) (lit : Fin 8 → Fin 8 → Bool) (x y : Fin 8) :
    (fb.paint lit).pixel x y = lit x y := by
  rw [pixel_paint, FrameBuffer.pixel, clear, BitVec.getLsbD_zero, Bool.false_or]

/-! ### The statements -/

/-- Settles O44: the glyph is an acknowledged FLUSH of the painted buffer, whose rows have the arrow's masks. -/
theorem drawArrowAcknowledged : Obligations.DrawArrowAcknowledged := fun s u hs acked =>
  ⟨_, (paints_drawArrow u).exec_acked hs acked, row_paint_arrow s.fb u⟩

/-- Settles O45: the glyph is an acknowledged FLUSH of the painted buffer, whose rows have the checkmark's masks. -/
theorem drawCheckmarkAcknowledged : Obligations.DrawCheckmarkAcknowledged := fun s hs acked =>
  ⟨_, paints_drawCheckmark.exec_acked hs acked, row_paint_checkmark s.fb⟩

/-- Settles O46: a cleared buffer becomes the predicate itself, and the two predicates read opposite virtual rows. -/
theorem arrowMirrorLaw : Obligations.ArrowMirrorLaw := by
  refine ⟨fun s hs clear => ?mirror, fun s hs clear => ?union⟩
  case mirror =>
    obtain ⟨t, ht, -, up, -⟩ := (paints_drawArrow true).exec_next hs
    obtain ⟨u, hu, -, down, -⟩ := (paints_drawArrow false).exec_next hs
    refine ⟨t, u, ht, hu, fun x y => ?_⟩
    rw [up, down, pixel_paint_cleared clear, pixel_paint_cleared clear, virtualRow_up]
  case union =>
    obtain ⟨t, ht, ready, up, -⟩ := (paints_drawArrow true).exec_next hs
    obtain ⟨u, hu, -, down, -⟩ := (paints_drawArrow false).exec_next ready
    refine ⟨u, execAll_pair ht hu, fun y => ?_⟩
    rw [down, row_paint_arrow, up, row_paint_arrow, clear, BitVec.zero_or, arrowRows_union]

/-- Settles O47: behind the gate nothing is painted, and past it a pixel lit before the paint is lit after it. -/
theorem glyphsNeverClear : Obligations.GlyphsNeverClear := by
  intro s i glyph
  obtain ⟨lit, paints⟩ := glyph_paints glyph
  cases hs : s.inited with
  | false => exact ⟨_, paints.exec_notInit hs, fun _ _ => id⟩
  | true =>
    obtain ⟨t, ht, -, painted, -⟩ := paints.exec_next hs
    refine ⟨t, ht, fun x y before => ?_⟩
    rw [painted, pixel_paint, before, Bool.true_or]

/-- Settles O48: past the gate the FLUSH of the painted buffer ends in the glyph's own next state. -/
theorem glyphPaintPrecedesFlush : Obligations.GlyphPaintPrecedesFlush := by
  intro s s' i glyph hs' sameFb
  obtain ⟨lit, paints⟩ := glyph_paints glyph
  obtain ⟨t', ht', -, painted', -⟩ := paints.exec_next hs'
  rcases Bool.eq_false_or_eq_true s.inited with hs | hs
  · obtain ⟨t, ht, -, painted, err⟩ := paints.exec_next hs
    have sameFb' : t.fb = t'.fb := by rw [painted, painted', sameFb]
    have flushed : exec .flush (s.withFb t.fb) = .next t := by
      rw [painted, ← ht]
      exact (paints.exec_eq_flush hs).symm
    have events : t.trace = s.trace ++ (s.withFb t.fb).flushRun.events :=
      exec_flush_trace (s := s.withFb t.fb) hs flushed
    exact ⟨t, t', ht, ht', fun _ => ⟨err, sameFb', t, _, flushed, events, events, rfl⟩,
      fun shut => absurd hs (Bool.eq_false_iff.mp shut)⟩
  · exact ⟨_, t', paints.exec_notInit hs, ht', fun ready => absurd ready (Bool.eq_false_iff.mp hs),
      fun _ => ⟨rfl, rfl, rfl⟩⟩

end Sys2Proof.Machine
end

section
/-! PROOFS. Driver init (44_driver_init.md): INIT is the run of its four one-byte sessions under the answers to come, then the
completion with that run's answer. Session k takes answers 2k (its OPEN) and 2k + 1 (its WRITE). -/

namespace Sys2Proof.Machine

/-! ### A row of one-byte sessions -/

section Sessions

variable {f : Nat → Answer} {a b : Byte}

theorem mem_of_wrote_mem_writeRun {bytes : List Byte} {r : Answer} (h : .wrote b r ∈ (writeRun f bytes).events) :
    b ∈ bytes := by
  induction bytes generalizing f with
  | nil => cases h
  | cons c rest ih =>
    rw [writeRun] at h
    cases h0 : f 0 with
    | ack =>
      rw [h0] at h
      rcases List.mem_cons.mp h with this | later
      · cases this
        exact List.mem_cons_self
      · exact List.mem_cons_of_mem c (ih later)
    | timeout =>
      rw [h0] at h
      cases List.mem_singleton.mp h
      exact List.mem_cons_self

/-- A session writes nothing but the bytes it is given (R63). -/
theorem mem_of_wrote_mem_sessionRun {bytes : List Byte} {r : Answer}
    (h : .wrote b r ∈ (sessionRun f a bytes).events) : b ∈ bytes := by
  rw [sessionRun] at h
  cases h0 : f 0 with
  | ack =>
    refine mem_of_wrote_mem_writeRun (f := fun k => f (k + 1)) (r := r) ?_
    simpa [h0] using h
  | timeout => simp [h0, unopenedSession] at h

/-- A row of sessions writes nothing but the bytes it is given (R190). -/
theorem mem_of_wrote_mem_sessionsRun {bytes : List Byte} {r : Answer}
    (h : .wrote b r ∈ (sessionsRun f a bytes).events) : b ∈ bytes := by
  induction bytes generalizing f with
  | nil => cases h
  | cons c rest ih =>
    have first (h : .wrote b r ∈ (sessionRun f a [c]).events) : b ∈ c :: rest :=
      List.mem_cons.mpr (Or.inl (List.mem_singleton.mp (mem_of_wrote_mem_sessionRun h)))
    rw [sessionsRun] at h
    cases hc : (sessionRun f a [c]).answer with
    | ack =>
      rw [hc] at h
      rcases List.mem_append.mp h with now | later
      · exact first now
      · exact List.mem_cons_of_mem c (ih later)
    | timeout =>
      rw [hc] at h
      exact first h

/-- Past the acknowledged sessions of `sent`, two answers each, the row goes on with `rest` (R190). -/
theorem sessionsRun_append (sent rest : List Byte) (h : ∀ k < 2 * sent.length, f k = .ack) :
    sessionsRun f a (sent ++ rest) =
      let q := sessionsRun (fun k => f (2 * sent.length + k)) a rest
      ⟨q.answer, 2 * sent.length + q.draws, (sent.flatMap fun b => ackedSession a [b]) ++ q.events⟩ := by
  induction sent generalizing f with
  | nil => simp
  | cons b sent ih =>
    simp only [List.length_cons, Nat.mul_succ] at h ⊢
    have first : sessionRun f a [b] = ⟨.ack, 2, ackedSession a [b]⟩ :=
      sessionRun_acked a [b] fun k (hk : k < 2) => h k (by omega)
    have later := ih (f := fun k => f (2 + k)) fun k hk => h (2 + k) (by omega)
    rw [List.cons_append, sessionsRun, first]
    simp only [later, List.flatMap_cons, List.append_assoc, Nat.add_comm _ 2, ← Nat.add_assoc]

/-- A row of sessions with every answer ACK (R190). -/
theorem sessionsRun_acked (bytes : List Byte) (h : ∀ k < 2 * bytes.length, f k = .ack) :
    sessionsRun f a bytes = ⟨.ack, 2 * bytes.length, bytes.flatMap fun b => ackedSession a [b]⟩ := by
  simpa [sessionsRun] using sessionsRun_append bytes [] h

/-- A row of sessions stops with the first one that is answered TIMEOUT (R190). -/
theorem sessionsRun_cons_of_timeout (rest : List Byte) (h : (sessionRun f a [b]).answer = .timeout) :
    sessionsRun f a (b :: rest) = sessionRun f a [b] := by
  rw [sessionsRun]
  simp only [h]

/-- A row of sessions whose first TIMEOUT is answer `j` of the session of `b` (R190, R63). -/
theorem sessionsRun_timedOut (sent : List Byte) (b : Byte) (rest : List Byte) {j : Nat} (hj : j < 2)
    (h : ∀ k < 2 * sent.length + j, f k = .ack) (ht : f (2 * sent.length + j) = .timeout) :
    sessionsRun f a (sent ++ b :: rest) = ⟨.timeout, 2 * sent.length + (j + 1),
      (sent.flatMap fun b => ackedSession a [b]) ++ timedOutSession a [b] j⟩ := by
  have cut : sessionRun (fun k => f (2 * sent.length + k)) a [b] = ⟨.timeout, j + 1, timedOutSession a [b] j⟩ :=
    sessionRun_timedOut a [b] hj (fun k hk => h _ (Nat.add_lt_add_left hk _)) ht
  rw [sessionsRun_append sent _ fun k hk => h k (Nat.lt_add_right j hk),
    sessionsRun_cons_of_timeout rest (congrArg TransportRun.answer cut), cut]

end Sessions

/-! ### INIT as the run of its sessions -/

theorem initCommands_eq_ofFn : initCommands = List.ofFn Config.initCmd := rfl

theorem initCommands_split : ∀ k : Fin 4,
    initCommands = initCommands.take k.val ++ Config.initCmd k :: initCommands.drop (k.val + 1)
  | 0 | 1 | 2 | 3 => rfl

/-- The transport run of an INIT: the four sessions of the command bytes under the answers to come (R190, R191). -/
def State.initRun (s : State) : TransportRun := sessionsRun s.answerAt Config.addrW initCommands

/-- R190, R192: an INIT, whatever the answers and INITED: its run, then the completion with the run's answer. -/
theorem exec_init_run (s : State) :
    exec .init s = .next (complete (answerCode s.initRun.answer)
      { s.ran s.initRun.draws s.initRun.events false with inited := initedAfter s.initRun.answer s.inited }) := by
  rw [exec_init, show effect .init s = _ from initSequence_spec s]
  rfl

theorem initRun_acked {s : State} (h : s.AllAck 8) : s.initRun = ⟨.ack, 8, initTrace⟩ := by
  rw [State.initRun, sessionsRun_acked initCommands h]
  rfl

/-- The run of an INIT whose first TIMEOUT answers the OPEN or the WRITE of session `k` (R190, R202). -/
theorem initRun_timedOut {s : State} {k : Fin 4} {onWrite : Bool} (h : s.TimeoutAt (2 * k.val + onWrite.toNat)) :
    s.initRun = ⟨.timeout, 2 * k.val + (onWrite.toNat + 1),
      (initCommands.take k.val).flatMap (fun b => ackedSession Config.addrW [b]) ++
        timedOutSession Config.addrW [Config.initCmd k] onWrite.toNat⟩ := by
  obtain ⟨acked, timeout⟩ := h
  have sent : (initCommands.take k.val).length = k.val := List.length_take_of_le k.isLt.le
  have run := sessionsRun_timedOut (f := s.answerAt) (a := Config.addrW) (initCommands.take k.val) (Config.initCmd k)
    (initCommands.drop (k.val + 1)) onWrite.toNat_lt (by rwa [sent]) (by rwa [sent])
  rwa [← initCommands_split, sent] at run

/-! ### Where the first TIMEOUT falls -/

/-- Among the next `n` answers all are ACK, or one is the first TIMEOUT (R62). -/
theorem allAck_or_timeoutAt (s : State) (n : Nat) : s.AllAck n ∨ ∃ k < n, s.TimeoutAt k := by
  induction n with
  | zero => exact Or.inl nofun
  | succ n ih =>
    rcases ih with acked | ⟨k, hk, timeout⟩
    · cases hn : s.answerAt n with
      | ack => exact Or.inl fun k hk => (Nat.lt_succ_iff_lt_or_eq.mp hk).elim (acked k) fun same => same ▸ hn
      | timeout => exact Or.inr ⟨n, n.lt_succ_self, acked, hn⟩
    · exact Or.inr ⟨k, Nat.lt_succ_of_lt hk, timeout⟩

/-- Each of INIT's eight answers is that of the OPEN or of the WRITE of one of its sessions (R190). -/
theorem init_answer_in_session : ∀ n < 8, ∃ (k : Fin 4) (onWrite : Bool), n = 2 * k.val + onWrite.toNat := by decide

/-! ### The statements -/

/-- Settles O20: INIT writes its run and INITED, and its run writes only the command bytes. -/
theorem frameOfInit : Obligations.FrameOfInit := by
  intro s t h
  rw [exec_init_run] at h
  cases h
  refine ⟨rfl, s.initRun.events, rfl, fun b r wrote => ?_⟩
  have command : b ∈ List.ofFn Config.initCmd := initCommands_eq_ofFn ▸ mem_of_wrote_mem_sessionsRun wrote
  obtain ⟨k, hk⟩ := List.mem_ofFn.mp command
  exact ⟨k, hk.symm⟩

/-- Settles O49, by the run of four acknowledged sessions. -/
theorem initAcknowledged : Obligations.InitAcknowledged := by
  intro s acked
  rw [exec_init_run, initRun_acked acked]
  rfl

/-- Settles O50: the run stops in session k, and its answer TIMEOUT keeps INITED. -/
theorem initTimesOut : Obligations.InitTimesOut := by
  intro s k onWrite timeout
  refine ⟨_, exec_init_run s, ?_⟩
  rw [initRun_timedOut timeout]
  refine ⟨rfl, rfl, rfl, rfl, ?_⟩
  cases onWrite <;> rfl

/-- Settles O51: the eight answers are all ACK (O49), or the first TIMEOUT falls in one of the four sessions (O50), and then an
INITED of 0 stays 0 and shuts the gate. -/
theorem initedOnlyWhenAcknowledged : Obligations.InitedOnlyWhenAcknowledged := by
  intro s
  rcases allAck_or_timeoutAt s 8 with acked | ⟨n, hn, timeout⟩
  · exact ⟨_, initAcknowledged s acked, Or.inl ⟨rfl, rfl, acked⟩⟩
  · obtain ⟨k, onWrite, rfl⟩ := init_answer_in_session n hn
    obtain ⟨t, ht, inited, err, -⟩ := initTimesOut s k onWrite timeout
    refine ⟨t, ht, Or.inr ⟨err, inited, ⟨_, hn, timeout⟩, fun before i hi => ?_⟩⟩
    have shut : t.inited = false := inited.trans before
    exact ⟨_, exec_notInit hi shut, rfl, shut⟩

end Sys2Proof.Machine
end

section
/-! PROOFS. Completion and the status codes (60_exceptions.md): what every completion writes, and which code a command's effect
ends with. -/

namespace Sys2Proof.Machine

/-- R33, R35: FAULT after a completion is set if it was set or the code is not OK. -/
theorem complete_fault_eq_or (c : Code) (s : State) : (complete c s).fault = (s.fault || decide (c ≠ .ok)) := by
  cases c <;> simp

/-- R201: the completion of `u`, whatever the code, where `u` is what a command has made of `s`: neither flag touched, no session
left open. -/
theorem complete_ends {s u : State} (c : Code) (fault : u.fault = s.fault) (ovr : u.ovr = s.ovr)
    (session : s.session = false → u.session = false) :
    (complete c u).busy = false ∧ (complete c u).command = none ∧
      (complete c u).fault = (s.fault || decide ((complete c u).err ≠ .ok)) ∧
      (s.session = false → (complete c u).session = false) ∧ (complete c u).ovr = s.ovr :=
  ⟨rfl, rfl, fault ▸ complete_fault_eq_or c u, session, ovr⟩

/-- R204: an illegal word held makes the CONTROLLER complete with ILLEGAL at once. -/
theorem controllerAct_illegal {s : State} {why : Illegal} (h : s.command = some (.illegal why)) :
    controllerAct s = .next (complete .illegal s) := by
  simp [controllerAct, h]

/-- R200: past the gate a command ends with OK, or with TIMEOUT if it drives the transport. -/
theorem effect_code (i : Instr) (s : State) :
    (effect i s).1 = .ok ∨ ((effect i s).1 = .timeout ∧ drivesTransport i = true) := by
  obtain ⟨r, v, -, silent, driven, -⟩ := effect_frame i s
  cases hd : drivesTransport i with
  | false => exact Or.inl (silent hd).2.2
  | true =>
    obtain ⟨-, code, -⟩ := driven hd
    rw [code]
    cases r.answer with
    | ack => exact Or.inl rfl
    | timeout => exact Or.inr ⟨rfl, rfl⟩

/-- Settles O13: the transition is one of three completions, of the state itself or of the command's effect, which keeps FAULT and
OVR and leaves no session open. -/
theorem acceptedCommandCompletes : Obligations.AcceptedCommandCompletes := by
  intro s d held
  obtain ⟨t, ht, -⟩ := controllerAct_completes held
  refine ⟨t, ht, ?_⟩
  rcases controllerAct_cases ht with ⟨idle, -⟩ | ⟨why, -, rfl⟩ | ⟨i, -, -, -, rfl⟩ | ⟨i, -, -, rfl⟩
  · exact absurd (held.symm.trans idle) nofun
  · exact complete_ends .illegal rfl rfl id
  · exact complete_ends .notInit rfl rfl id
  · exact complete_ends _ (effect_fault i s) (effect_ovr i s) effect_session

/-- Settles O16: past the gate the code is the effect's, OK or TIMEOUT; at the gate it is NOT_INIT. -/
theorem codesByCommand : Obligations.CodesByCommand := by
  intro s i
  refine ⟨_, exec_eq i s, ?_⟩
  split
  · rw [complete_err]
    rcases effect_code i s with ok | ⟨timeout, drives⟩
    · rw [ok]
      exact ⟨nofun, nofun, nofun⟩
    · rw [timeout]
      exact ⟨nofun, fun _ => drives, nofun⟩
  · next stopped =>
    obtain ⟨other, inited⟩ := not_or.mp stopped
    exact ⟨nofun, nofun, fun _ => ⟨other, eq_false_of_ne_true inited⟩⟩

/-- Settles O14: the completion with ILLEGAL, and nothing before it. -/
theorem illegalWordCompletes : Obligations.IllegalWordCompletes := by
  intro s v why illegal held
  exact controllerAct_illegal (illegal ▸ held)

end Sys2Proof.Machine
end

section
/-! PROOFS. When a HOST program has ended (R234; log entries 5, 9, 23): what writes and reads of the window do to `State.Ended` and
`State.result`, what the CONTROLLER leaves alone, and what an idle step is; from these, the statement of
70_reset_and_hazards.md. -/

namespace Sys2Proof.Machine

/-! ### The result -/

/-- Equal results are equal fields, the frame buffer's rows taken one by one. -/
theorem result_eq_iff (s t : State) : s.result = t.result ↔
    (∀ y : Fin 8, s.fb.row y = t.fb.row y) ∧ s.inited = t.inited ∧ s.status = t.status ∧ s.trace = t.trace := by
  have rows : s.fb = t.fb ↔ ∀ y, s.fb.row y = t.fb.row y := ⟨fun h _ => h ▸ rfl, frameBuffer_ext⟩
  rw [State.result, State.result, Result.mk.injEq, rows]

@[simp] theorem deliver_result (v : Word) (s : State) : (deliver v s).result = s.result := rfl

@[simp] theorem readStatus_result (s : State) : (readStatus s).result = s.result := rfl

/-! ### The HOST's actions and the end of a program -/

/-- R234: a CMD write, accepted or not, leaves a command to be read back. -/
@[simp] theorem writeCmd_lastCommand (v : Word) (s : State) : (writeCmd v s).lastCommand = .written := by
  unfold writeCmd
  split <;> rfl

@[simp] theorem writeCmd_host (v : Word) (s : State) : (writeCmd v s).host = s.host := by
  unfold writeCmd
  split <;> rfl

/-- A command written and not read back is no end. -/
theorem not_ended_of_written {s : State} (h : s.lastCommand = .written) : ¬ s.Ended :=
  fun ended => nomatch h.symm.trans ended.readBack

/-- With the last command written, a STATUS read ends the program if it finds BUSY = 0, and only then. -/
theorem ended_readStatus_iff {s : State} (written : s.lastCommand = .written) (last : s.NoCommandToCome) :
    (readStatus s).Ended ↔ s.busy = false :=
  ⟨fun ended => ended.idle, fun idle => ⟨by simp [written, idle], idle, last⟩⟩

/-- An action of the HOST that is no CMD write leaves an ended run ended, with its result. -/
theorem hostAct_keeps_ended {a : HostAction} {s t : State} (h : hostAct a s = .next t) (hs : s.Ended)
    (ha : ∀ v, a ≠ .write cmdOffset 4 v) : t.Ended ∧ t.result = s.result := by
  rcases hostAct_cases h with ⟨v, hw, -⟩ | ⟨v, hw, -⟩ | ⟨v, rfl⟩ | rfl | rfl
  · exact absurd hw (ha v)
  · exact absurd hw (ha v)
  · exact ⟨⟨hs.readBack, hs.idle, hs.last⟩, deliver_result v s⟩
  · exact ⟨⟨by simp [hs.readBack], hs.idle, hs.last⟩, readStatus_result s⟩
  · exact ⟨hs, rfl⟩

/-- `s` with the accesses of `host` to come. -/
def State.withHost (s : State) (host : List HostAction) : State := { s with host := host }

@[simp] theorem withHost_result (s : State) (host : List HostAction) : (s.withHost host).result = s.result := rfl

theorem withHost_nil_noCommandToCome (s : State) : (s.withHost []).NoCommandToCome := nofun

/-- The HOST's list moved past its head: an ended run is ended still. -/
theorem State.Ended.host_tail {s : State} {a : HostAction} {rest : List HostAction} (hs : s.Ended)
    (hl : s.host = a :: rest) : (s.withHost rest).Ended where
  readBack := hs.readBack
  idle := hs.idle
  last v hv := hs.last v (hl ▸ List.mem_cons_of_mem a hv)

/-! ### The CONTROLLER leaves the HOST's record alone -/

@[simp] theorem effect_host (i : Instr) (s : State) : (effect i s).2.host = s.host := by
  obtain ⟨r, v, h, -⟩ := effect_frame i s
  rw [h]
  rfl

@[simp] theorem effect_lastCommand (i : Instr) (s : State) : (effect i s).2.lastCommand = s.lastCommand := by
  obtain ⟨r, v, h, -⟩ := effect_frame i s
  rw [h]
  rfl

/-- A command in execution touches neither the HOST's accesses to come nor the record of its last command. -/
theorem controllerAct_keeps_host {s t : State} (h : controllerAct s = .next t) :
    t.host = s.host ∧ t.lastCommand = s.lastCommand := by
  rcases controllerAct_cases h with ⟨-, rfl⟩ | ⟨why, -, rfl⟩ | ⟨i, -, -, -, rfl⟩ | ⟨i, -, -, rfl⟩
  · exact ⟨rfl, rfl⟩
  · exact ⟨rfl, rfl⟩
  · exact ⟨rfl, rfl⟩
  · exact ⟨by simp, by simp⟩

/-! ### Steps with no command in execution -/

/-- R30, R38: with BUSY = 0 no command is held. -/
theorem State.Inv.command_none {s : State} (hi : s.Inv) (hb : s.busy = false) : s.command = none := by
  simpa [hi.busy_iff] using hb

theorem step_of_host_nil {s : State} (hi : s.Inv) (hb : s.busy = false) (hl : s.host = []) : step s = .next s :=
  step_idle (hostReady_nil hl) (hi.command_none hb)

theorem step_of_host_cons {s : State} {a : HostAction} {rest : List HostAction} (hi : s.Inv) (hb : s.busy = false)
    (hl : s.host = a :: rest) : step s = hostAct a (s.withHost rest) := by
  obtain ⟨-, alone, -⟩ := stepMovesOneAgent s
  exact alone a rest (hi.command_none hb) hb hl

/-- An ended run is idle, so its step is nothing at all or one more access of the HOST, which is no CMD write. -/
theorem step_keeps_ended {s t : State} (hi : s.Inv) (hs : s.Ended) (h : step s = .next t) :
    t.Ended ∧ t.result = s.result := by
  cases hl : s.host with
  | nil =>
    rw [step_of_host_nil hi hs.idle hl] at h
    cases h
    exact ⟨hs, rfl⟩
  | cons a rest =>
    rw [step_of_host_cons hi hs.idle hl] at h
    have notWrite : ∀ v, a ≠ .write cmdOffset 4 v := by
      rintro v rfl
      exact hs.last v (hl ▸ List.mem_cons_self)
    have kept := hostAct_keeps_ended h (hs.host_tail hl) notWrite
    rwa [withHost_result] at kept

/-! ### A command line: a CMD write and its WAIT -/

/-- R52: a CMD write that finds BUSY = 0 is accepted by the next step. -/
theorem step_accepts {s : State} {v : Word} {rest : List HostAction} (hi : s.Inv) (hb : s.busy = false)
    (hl : s.host = .write cmdOffset 4 v :: rest) : step s = .next (accept v (s.withHost rest)) := by
  have idle : (s.withHost rest).busy = false := hb
  rw [step_of_host_cons hi hb hl, hostAct_writeCmd, writeCmd_idle idle]

/-- While a command is held and the HOST waits, the step completes the command and the WAIT is still to come. -/
theorem step_completes_under_wait {s : State} {d : Decoded} {rest : List HostAction} (hc : s.command = some d)
    (hb : s.busy = true) (hl : s.host = .wait :: rest) :
    ∃ t, step s = .next t ∧ t.busy = false ∧ t.host = .wait :: rest ∧ t.lastCommand = s.lastCommand := by
  obtain ⟨t, ht, idle⟩ := controllerAct_completes hc
  obtain ⟨host, last⟩ := controllerAct_keeps_host ht
  have waits : hostReady s = false := by simp [hostReady_cons hl, hb]
  exact ⟨t, (step_controller waits hc).trans ht, idle, host.trans hl, last⟩

/-- R89, R234: the write is accepted, the command completes, and the WAIT reads BUSY = 0. -/
theorem commandLine_ends {s : State} {v : Word} (hi : s.Inv) (hb : s.busy = false)
    (hl : s.host = [.write cmdOffset 4 v, .wait]) : ∃ t, core.run 3 s = .next t ∧ t.Ended := by
  have accepted := step_accepts hi hb hl
  have inv₁ := stepKeepsInvariant _ _ hi accepted
  obtain ⟨t, completed, idle, host, last⟩ := step_completes_under_wait (accept_command (s.withHost [.wait]) v) rfl rfl
  have inv₂ := stepKeepsInvariant _ _ inv₁ completed
  have waited : step t = .next (readStatus (t.withHost [])) := by
    rw [step_of_host_cons inv₂ idle host, hostAct_readStatus (Or.inr rfl)]
  have ends : (readStatus (t.withHost [])).Ended ↔ t.busy = false :=
    ended_readStatus_iff (s := t.withHost []) last (withHost_nil_noCommandToCome t)
  refine ⟨_, ?run, ends.mpr idle⟩
  case run =>
    calc core.run 3 s = core.run 2 _ := run_of_step_next accepted 2
      _ = core.run 1 t := run_of_step_next completed 1
      _ = .next _ := run_of_step_next waited 0

/-! ### A CMD write that is never read back -/

/-- The HOST's program is the one CMD write of `v`, and it is still to come, or it is done and was the last access. -/
def State.LoneWrite (v : Word) (s : State) : Prop :=
  s.host = [.write cmdOffset 4 v] ∨ (s.host = [] ∧ s.lastCommand = .written)

theorem State.LoneWrite.not_ended {s : State} {v : Word} (h : s.LoneWrite v) : ¬ s.Ended := by
  rcases h with hl | ⟨-, written⟩
  · exact fun ended => ended.last v (hl ▸ List.mem_cons_self)
  · exact not_ended_of_written written

theorem step_keeps_loneWrite {v : Word} {s t : State} (hs : s.LoneWrite v) (h : step s = .next t) : t.LoneWrite v := by
  rcases step_cases h with ⟨ht, -⟩ | ⟨s', hs', ht, -⟩ | ⟨s', a, rest, -, hl, ht, -⟩
  · cases ht
    exact hs
  · obtain ⟨host, last⟩ := controllerAct_keeps_host ht.symm
    have kept : s'.host = s.host ∧ s'.lastCommand = s.lastCommand := by
      rcases hs' with rfl | rfl <;> simp
    rw [State.LoneWrite, host, last, kept.1, kept.2]
    exact hs
  · rcases hs with hw | ⟨done, -⟩
    · obtain ⟨rfl, rfl⟩ := List.cons.inj (hl.symm.trans hw)
      cases ht
      exact Or.inr ⟨writeCmd_host v _, writeCmd_lastCommand v _⟩
    · exact absurd (hl.symm.trans done) nofun

/-! ### The statement -/

/-- Settles O60: the reads and writes of the window, then runs from an idle state, of a lone write, and of an ended program. -/
theorem endedRunIsFinal : Obligations.EndedRunIsFinal := by
  refine ⟨?write, ?read, fun s v hi hb hl => commandLine_ends hi hb hl, ?lone, ?final, ?still, result_eq_iff⟩
  case write =>
    intro s t v h
    cases h
    exact not_ended_of_written (writeCmd_lastCommand v s)
  case read =>
    intro s a ha written last
    exact ⟨_, hostAct_readStatus ha s, ended_readStatus_iff written last, readStatus_result s⟩
  case lone =>
    intro n s t v hl h
    exact (run_keeps (fun _ _ => step_keeps_loneWrite) n (Or.inl hl : s.LoneWrite v) h).not_ended
  case final =>
    intro n s t hi hs h
    have keep : ∀ u w : State, (u.Inv ∧ u.Ended ∧ u.result = s.result) → step u = .next w →
        w.Inv ∧ w.Ended ∧ w.result = s.result := by
      rintro u w ⟨inv, ended, same⟩ hstep
      obtain ⟨wEnded, wSame⟩ := step_keeps_ended inv ended hstep
      exact ⟨stepKeepsInvariant u w inv hstep, wEnded, wSame.trans same⟩
    exact (run_keeps keep n ⟨hi, hs, rfl⟩ h).2
  case still =>
    intro n s hi hs hl
    induction n with
    | zero => rfl
    | succ n ih => exact (run_of_step_next (step_of_host_nil hi hs.idle hl) n).trans ih

end Sys2Proof.Machine
end
